-- ==== Sys2Proof/Word.lean ====
section
/-! DEFINITION. The widths of the block's registers (spec/00_scope.md rule R17), colour triples and grids. -/

namespace Sys2Proof

/-- A byte: a colour channel, a wheel position, `CPHASE`, a command word (R17, R100). -/
abbrev Byte := BitVec 8

/-- A 16-bit counter: `CNT`, `LCNT`, `CIDX` (R17). -/
abbrev Half := BitVec 16

/-- A 32-bit word: `DCNT`, `DLAST`, a random draw (R17). -/
abbrev Word := BitVec 32

/-- An 18-bit event word (R108). -/
abbrev EventWord := BitVec 18

/-- A ROWS x COLS array, row by row (R70, the key space). -/
abbrev Grid (α : Type) := List (List α)

/-- A colour in internal channel order `(r, g, b)` (R109). -/
structure Rgb where
  r : Byte
  g : Byte
  b : Byte
deriving DecidableEq, Repr, Inhabited

/-- Black is `(0, 0, 0)` (R40). -/
def Rgb.black : Rgb := ⟨0, 0, 0⟩

/-- A colour on the LED output, three bytes sent in the order `c0`, `c1`, `c2` (R109). -/
structure OutTriple where
  c0 : Byte
  c1 : Byte
  c2 : Byte
deriving DecidableEq, Repr, Inhabited

end Sys2Proof
end

