-- ==== Sys2Proof/Config.lean ====
section
/-! DEFINITION. The parameters of the block (spec/00_scope.md rules R8 to R18), the form of the environment's answers
to one `SCAN`, and the free values (constants with no body, of which nothing can be proved). -/

namespace Sys2Proof

/-- An electrical level of a pin (R18). -/
inductive PinLevel where
  | low
  | high
deriving DecidableEq, Repr

/-- The level of a row line, as every rule speaks of it (R31). -/
inductive RowLevel where
  | active
  | inactive
deriving DecidableEq, Repr, Inhabited

/-- One element of `RESID`: settled, or the microseconds since the row was last deactivated (R35). -/
inductive Residual where
  | settled
  | age (us : Nat)
deriving DecidableEq, Repr, Inhabited

/-- The parameters, each constant for the life of the block (R51). A field with a default has the value the document
gives (R9, R12, R13, R15, R16, D24) or the spec records (R18, D6); a field without one is OPEN. -/
structure Params where
  /-- ROWS, OPEN (R8). -/
  rows : Nat
  /-- COLS, OPEN (R8). -/
  cols : Nat
  /-- DEBOUNCE_N (R9). -/
  debounceN : Nat := 15
  /-- SETTLE_US, OPEN (R10). -/
  settleUs : Nat
  /-- T_SETTLE_MIN_US, OPEN (R10). -/
  settleMinUs : Nat
  /-- NUM_LEDS, OPEN (R11). -/
  numLeds : Nat
  /-- K_RAINBOW (R12). -/
  kRainbow : Nat := 10
  /-- K_LIGHTNING (R12). -/
  kLightning : Nat := 10
  /-- K_CHASE (R12). -/
  kChase : Nat := 10
  /-- K_CHASE2 (R12). -/
  kChase2 : Nat := 100
  /-- LIGHTNING_ODDS (R13). -/
  lightningOdds : Nat := 20
  /-- DIM_THRESH, 0..255 (R13). -/
  dimThresh : Byte := 100
  /-- LFADE, OPEN, 0..255 (R14). -/
  lfade : Byte
  /-- CFADE, OPEN, 0..255 (R14). -/
  cfade : Byte
  /-- FLASH_A, OPEN (R14). -/
  flashA : Rgb
  /-- FLASH_B, OPEN (R14). -/
  flashB : Rgb
  /-- KFLASH_A, OPEN (R14). -/
  kflashA : Rgb
  /-- KFLASH_B, OPEN (R14). -/
  kflashB : Rgb
  /-- CSTEP, OPEN, 0..255 (R14). -/
  cstep : Byte
  /-- DISPLAY_TIMEOUT (R15). -/
  displayTimeout : Nat := 400
  /-- TICK_PERIOD in microseconds; read by no rule (R16). -/
  tickPeriodUs : Nat := 1000
  /-- WDT_DEADLINE in microseconds, OPEN; read by no rule (R16). -/
  wdtDeadlineUs : Nat
  /-- ACTIVE_LEVEL; read by no rule (R18). -/
  activeLevel : PinLevel := .low
deriving DecidableEq, Repr

/-- What the environment answers during one `SCAN` (R134, R135, R138, R140).
`keys[r]` is the whole matrix `K_t` at the instant `t_r` at which row `r` is sampled; `leaks[r][c]` is the
environment's choice where a sample may read either way; `failAt` is the place of the first failing pin operation in the order
of R130, if one fails; `leftRowOut` and `leftResid` are what a failed scan leaves in `ROW_OUT` and `RESID`. -/
structure ScanAnswers where
  keys : List (Grid Bool)
  leaks : Grid Bool
  failAt : Option Nat
  leftRowOut : List RowLevel
  leftResid : List Residual
deriving DecidableEq, Repr, Inhabited

/-- FREE VALUE: the answers of the n-th `SCAN` for which none are lined up (log 3). -/
opaque Config.freeScan : Nat → ScanAnswers

/-- FREE VALUE: the n-th random draw for which none is lined up, under no law (R199, log 4). -/
opaque Config.freeDraw : Nat → Word

end Sys2Proof
end

