-- ==== Sys2Proof/Syntax.lean ====
section
/-! DEFINITION. The operations of the block: one constructor per row of spec/opcode_table.json
(spec/30_encoding.md rule R103). -/

namespace Sys2Proof

/-- The mode tag, a closed sum type (R45, R106). -/
inductive Mode where
  | rainbow
  | lightning
  | chase
  | chase2
deriving DecidableEq, Repr, Inhabited

/-- One operation (R103). Only `LMODE` has an operand (R104). -/
inductive Instr where
  /-- `SCAN` (R130). -/
  | scan
  /-- `DEBOUNCE` (R150). -/
  | debounce
  /-- `EVPOP` (R160). -/
  | evpop
  /-- `LTICK` (R189). -/
  | ltick
  /-- `LKEY` (R197). -/
  | lkey
  /-- `LFRAME` (R203). -/
  | lframe
  /-- `LMODE m` (R184). -/
  | lmode (m : Mode)
  /-- `DTICK` (R241). -/
  | dtick
  /-- `DKEY` (R240). -/
  | dkey
deriving DecidableEq, Repr

end Sys2Proof
end

