-- ==== Sys2Proof/WellFormed.lean ====
section
/-! DEFINITION. Well-formedness: the legal ranges of the parameters (spec/00_scope.md rules R8 to R15,
spec/93_implementation_defined.md U25), bundled so that an illegal configuration cannot be built, and of instructions. -/

namespace Sys2Proof

namespace Params

/-- 1 <= ROWS <= 256 (R8). -/
def rowsOk (p : Params) : Bool := decide (1 ≤ p.rows ∧ p.rows ≤ 256)

/-- 1 <= COLS <= 256 (R8). -/
def colsOk (p : Params) : Bool := decide (1 ≤ p.cols ∧ p.cols ≤ 256)

/-- 1 <= DEBOUNCE_N <= 65535 (R9). -/
def debounceNOk (p : Params) : Bool := decide (1 ≤ p.debounceN ∧ p.debounceN ≤ 65535)

/-- 1 <= NUM_LEDS <= 65536 (R11). -/
def numLedsOk (p : Params) : Bool := decide (1 ≤ p.numLeds ∧ p.numLeds ≤ 65536)

/-- 1 <= K <= 65535 for one divisor (R12). -/
def divisorOk (k : Nat) : Bool := decide (1 ≤ k ∧ k ≤ 65535)

/-- The four divisors (R12). -/
def divisorsOk (p : Params) : Bool :=
  divisorOk p.kRainbow && divisorOk p.kLightning && divisorOk p.kChase && divisorOk p.kChase2

/-- LIGHTNING_ODDS >= 1 (R13). -/
def oddsOk (p : Params) : Bool := decide (1 ≤ p.lightningOdds)

/-- 1 <= DISPLAY_TIMEOUT <= 2^32 - 1 (R15). -/
def timeoutOk (p : Params) : Bool := decide (1 ≤ p.displayTimeout ∧ p.displayTimeout ≤ 4294967295)

/-- Every parameter is in its legal range. The byte-wide parameters are in range by their type. -/
def legal (p : Params) : Bool :=
  p.rowsOk && p.colsOk && p.debounceNOk && p.numLedsOk && p.divisorsOk && p.oddsOk && p.timeoutOk

end Params

/-- A configuration the model builds: parameters with the proof that they are legal. What U25 calls `refuse` cannot be
written as a term of this type. -/
structure Config extends Params where
  legal : toParams.legal = true
deriving DecidableEq, Repr

/-- Every instruction is well formed: the one operand, a mode tag, has no illegal value (R45, R106). -/
def Instr.wellFormed : Instr → Bool
  | .scan => true
  | .debounce => true
  | .evpop => true
  | .ltick => true
  | .lkey => true
  | .lframe => true
  | .lmode _ => true
  | .dtick => true
  | .dkey => true

end Sys2Proof
end

