-- ==== Sys2Proof/Decode.lean ====
section
/-! DEFINITION. The command word (spec/30_encoding.md rules R100 to R106): a decoder total on all 256 values, and the
encoder. -/

namespace Sys2Proof

/-- Why a command word spells no operation (R105). -/
inductive IllegalWord where
  /-- The `unit` field names no unit (0 or 5..15). -/
  | noSuchUnit (unit : BitVec 4)
  /-- The unit exists and has no operation of this `funct`. -/
  | noSuchFunct (unit funct : BitVec 4)
deriving DecidableEq, Repr

/-- The `unit` field, bits 7:4 (R101). -/
def unitField (w : Byte) : BitVec 4 := w.extractLsb' 4 4

/-- The `funct` field, bits 3:0 (R101). -/
def functField (w : Byte) : BitVec 4 := w.extractLsb' 0 4

/-- The `mode` field of format M, bits 1:0 (R102). -/
def modeField (w : Byte) : BitVec 2 := w.extractLsb' 0 2

/-- The mode of a 2-bit tag; all four are legal (R106). -/
def modeOfTag (t : BitVec 2) : Mode :=
  if t = 0 then .rainbow else if t = 1 then .lightning else if t = 2 then .chase else .chase2

/-- The 2-bit tag of a mode (R106). -/
def modeTag : Mode → BitVec 2
  | .rainbow => 0
  | .lightning => 1
  | .chase => 2
  | .chase2 => 3

/-- A word matches a row of the opcode map when it agrees with the row's pattern under its mask (R103). -/
def rowMatches (w pattern mask : Byte) : Bool := w &&& mask == pattern

/-- The name of the rejection of a word that no row matches (R105). -/
def illegalWord (w : Byte) : IllegalWord :=
  let unit := unitField w
  if unit = 1 ∨ unit = 2 ∨ unit = 3 ∨ unit = 4 then .noSuchFunct unit (functField w)
  else .noSuchUnit unit

/-- The decoder: the rows of R103 in the table's order, every other word rejected by name (R104, R105). -/
def decode (w : Byte) : Except IllegalWord Instr :=
  if rowMatches w 0x10 0xFF then .ok .scan
  else if rowMatches w 0x20 0xFF then .ok .debounce
  else if rowMatches w 0x21 0xFF then .ok .evpop
  else if rowMatches w 0x30 0xFF then .ok .ltick
  else if rowMatches w 0x31 0xFF then .ok .lkey
  else if rowMatches w 0x32 0xFF then .ok .lframe
  else if rowMatches w 0x34 0xFC then .ok (.lmode (modeOfTag (modeField w)))
  else if rowMatches w 0x40 0xFF then .ok .dtick
  else if rowMatches w 0x41 0xFF then .ok .dkey
  else .error (illegalWord w)

/-- The command byte of an instruction whose bits are `w`, given `nbits` of them: a command is one byte (R100, R112). -/
def commandByte (nbits w : Nat) : Byte := BitVec.ofNat 8 (w % 2 ^ nbits)

/-- What the decoder reads from a row of spec/opcode_table.json whose bits are `w`. -/
def decodeTableWord (nbits w : Nat) : Option Instr :=
  match decode (commandByte nbits w) with
  | .ok i => some i
  | .error _ => none

/-- Format N: `unit` in bits 7:4, `funct` in bits 3:0 (R101). -/
def formatN (unit funct : BitVec 4) : Byte := unit ++ funct

/-- Format M: `unit` = 3, `0b01`, `mode` (R102). -/
def formatM (mode : BitVec 2) : Byte := (3#4 ++ 1#2 : BitVec 6) ++ mode

/-- The command word of an instruction (R103). -/
def encode : Instr → Byte
  | .scan => formatN 1 0
  | .debounce => formatN 2 0
  | .evpop => formatN 2 1
  | .ltick => formatN 3 0
  | .lkey => formatN 3 1
  | .lframe => formatN 3 2
  | .lmode m => formatM (modeTag m)
  | .dtick => formatN 4 0
  | .dkey => formatN 4 1

end Sys2Proof
end

