-- ==== Sys2Proof/Machine/State.lean ====
section
/-! DEFINITION. The state of the block (spec/10_state.md rule R30), what its host side delivers, the reasons a step can
stop, and the state after reset (rule R61). -/

namespace Sys2Proof.Machine

/-- The current sprite: exactly three are ever selected (R47, R107). -/
inductive Sprite where
  | idle
  | tap1
  | tap2
deriving DecidableEq, Repr, Inhabited

/-- Where a reset comes from; all three act alike on the block (R320). -/
inductive ResetSource where
  | powerOn
  | watchdog
  | firmwareRequest
deriving DecidableEq, Repr

/-- What the host side delivers to the block (R55, R320): a command word on the CMD port; a reset between operations; or a
command word whose operation a reset cuts short. -/
inductive HostInput where
  | command (word : Byte)
  | reset (source : ResetSource)
  | commandCutByReset (word : Byte) (source : ResetSource)
deriving DecidableEq, Repr

/-- The state. The first group is R30's table with the EV port of R52; the second is the model's own (log 1 to 4): the
configuration, which no step changes, and the inputs the outside world has lined up. -/
structure State where
  /-- `ROW_OUT` (R31). -/
  rowOut : List RowLevel
  /-- `RESID`, hidden (R35). -/
  resid : List Residual
  /-- `SNAP` (R33). -/
  snap : Grid Bool
  /-- `STABLE` (R36). -/
  stable : Grid Bool
  /-- `PREV_RAW` (R37). -/
  prevRaw : Grid Bool
  /-- `CNT` (R38). -/
  cnt : Grid Half
  /-- `EVQ`, head first (R39). -/
  evq : List EventWord
  /-- `FRAME` (R40). -/
  frame : List Rgb
  /-- `WPOS` (R41). -/
  wpos : List Byte
  /-- `LCNT` (R42). -/
  lcnt : Half
  /-- `CIDX` (R43). -/
  cidx : Half
  /-- `CPHASE` (R44). -/
  cphase : Byte
  /-- `MODE` (R45). -/
  mode : Mode
  /-- `SPRITE` (R47). -/
  sprite : Sprite
  /-- `DCNT` (R48). -/
  dcnt : Word
  /-- `DLAST` (R49). -/
  dlast : Word
  /-- `FAULT`: bit 0 IOERR, bit 1 ILLCMD, bit 2 PROTO (R50). -/
  fault : BitVec 3
  /-- The word on the EV port (R52). -/
  evPort : EventWord
  /-- `OUT_EV`, oldest first (R52). -/
  outEv : List EventWord
  /-- `OUT_LED`, oldest first (R53). -/
  outLed : List (List OutTriple)
  /-- `OUT_DRAW`, oldest first (R54). -/
  outDraw : List Sprite
  /-- MODEL: the configuration the block was built with (R51, log 2). -/
  cfg : Config
  /-- MODEL: what the host side delivers next, in order (R55, log 1). -/
  inputs : List HostInput
  /-- MODEL: answers lined up for the next `SCAN`s (log 3). -/
  scanScript : List ScanAnswers
  /-- MODEL: values lined up for the next draws (log 4). -/
  drawScript : List Word
  /-- MODEL: how many `SCAN`s have taken a free answer (log 3). -/
  freeScans : Nat
  /-- MODEL: how many draws have taken a free value (log 4). -/
  freeDraws : Nat
deriving DecidableEq, Repr

/-- Reasons to stop with a fault. There is none: the spec gives the state after each of the block's three faults (R280 to
R286), so each is a next state with its bit of `FAULT` set. Safe: no behaviour of the block is cut off (log 5). -/
inductive Fault
deriving DecidableEq, Repr

/-- Reasons to refuse. -/
inductive Refusal where
  /-- Raised by `exec` for an instruction that has no meaning yet; no arm raises it now. Safe: the run stops. -/
  | notModelled (mnemonic : String)
deriving DecidableEq, Repr

namespace State

/-- The state after reset of a block built with configuration `c` (R61), nothing lined up by host or environment. -/
def resetWith (c : Config) : State where
  rowOut := List.replicate c.rows .inactive
  resid := List.replicate c.rows .settled
  snap := List.replicate c.rows (List.replicate c.cols false)
  stable := List.replicate c.rows (List.replicate c.cols false)
  prevRaw := List.replicate c.rows (List.replicate c.cols false)
  cnt := List.replicate c.rows (List.replicate c.cols 0)
  evq := []
  frame := List.replicate c.numLeds Rgb.black
  wpos := List.replicate c.numLeds 0
  lcnt := 0
  cidx := 0
  cphase := 0
  mode := .rainbow
  sprite := .idle
  dcnt := 0
  dlast := 0
  fault := 0
  evPort := 0
  outEv := []
  outLed := []
  outDraw := []
  cfg := c
  inputs := []
  scanScript := []
  drawScript := []
  freeScans := 0
  freeDraws := 0

/-- DESIGN CHOICE (log 2): the parameters of the block that `reset` names. The document's defaults; for OPEN parameters the
vector values of R10, R11 and R14; the 1 x 1 matrix is the only size the document names (R8). -/
def resetParams : Params where
  rows := 1
  cols := 1
  settleUs := 5
  settleMinUs := 5
  numLeds := 4
  lfade := 10
  cfade := 10
  flashA := ⟨255, 255, 255⟩
  flashB := ⟨128, 128, 255⟩
  kflashA := ⟨255, 255, 255⟩
  kflashB := ⟨128, 128, 255⟩
  cstep := 1
  wdtDeadlineUs := 0

/-- `resetParams` with its legality (log 2). -/
def resetConfig : Config where
  toParams := resetParams
  legal := by decide

/-- The machine right after reset (R61), of the block built with `resetConfig`. -/
def reset : State := resetWith resetConfig

end State

end Sys2Proof.Machine
end

