-- ==== Sys2Proof/Machine/Operands.lean ====
section
/-! DEFINITION. How an operation forms an index or reads an operand (spec/20_memory.md rules R71, R85), the per-mode
divisor (R12), and the data encodings (spec/30_encoding.md rules R107 to R109). -/

namespace Sys2Proof.Machine

/-! ### The key space (R70, R85 (a)) -/

/-- The element at row `r`, column `c` of a key-space array (R20). -/
def gridAt {α : Type} [Inhabited α] (g : Grid α) (r c : Nat) : α := (g.getD r []).getD c default

/-- The ROWS x COLS array whose element at (r, c) is `f r c`. -/
def gridOf {α : Type} (p : Params) (f : Nat → Nat → α) : Grid α :=
  (List.range p.rows).map fun r => (List.range p.cols).map fun c => f r c

/-- The keys in row-major order: ascending row, within a row ascending column (R72 (a), R85 (a)). -/
def keysInOrder (p : Params) : List (Nat × Nat) :=
  (List.range p.rows).flatMap fun r => (List.range p.cols).map fun c => (r, c)

/-! ### The LED space (R85 (b) to (d)) -/

/-- The colour of LED `i` (R40). -/
def ledAt (s : State) (i : Nat) : Rgb := s.frame.getD i Rgb.black

/-- The chase index advanced by one, wrapping at NUM_LEDS (R71 (c), R207 (b)). -/
def nextChaseIndex (s : State) : Nat := (s.cidx.toNat + 1) % s.cfg.numLeds

/-- Chase2's second index (R71 (d), R194), from the first. -/
def oppositeIndex (p : Params) (i : Nat) : Nat := (i + p.numLeds / 2) % p.numLeds

/-- `index(d)`: the LED a draw selects (R71 (e), R111). -/
def drawIndex (p : Params) (d : Word) : Nat := d.toNat % p.numLeds

/-! ### The mode operand -/

/-- `K(m)`: the update divisor of a mode (R12, R106). -/
def divisor (p : Params) : Mode → Nat
  | .rainbow => p.kRainbow
  | .lightning => p.kLightning
  | .chase => p.kChase
  | .chase2 => p.kChase2

/-! ### Data encodings -/

/-- The sprite identifier, 2 bits (R107). -/
def spriteId : Sprite → BitVec 2
  | .idle => 0
  | .tap1 => 1
  | .tap2 => 2

/-- `EV(kind, r, c)`: valid in bit 17, kind (Press = 1) in bit 16, row in bits 15:8, column in bits 7:0 (R108). -/
def eventWord (press : Bool) (r c : Nat) : EventWord :=
  ((BitVec.ofBool true ++ BitVec.ofBool press : BitVec 2) ++ BitVec.ofNat 8 r : BitVec 10) ++ BitVec.ofNat 8 c

/-- `EV_NONE`: all 18 bits 0 (R108). -/
def eventNone : EventWord := 0

/-- The `row` field of an event word (R108). -/
def eventRow (w : EventWord) : Nat := (w.extractLsb' 8 8).toNat

/-- The `col` field of an event word (R108). -/
def eventCol (w : EventWord) : Nat := (w.extractLsb' 0 8).toNat

/-- The output triple of a colour: red and green swapped (R109, R203). -/
def outTriple (t : Rgb) : OutTriple := ⟨t.g, t.r, t.b⟩

/-- A colour as a 24-bit number, first-named byte highest (R109). -/
def rgbNumber (t : Rgb) : BitVec 24 := (t.r ++ t.g : BitVec 16) ++ t.b

/-- An output triple as a 24-bit number, first-named byte highest (R109). -/
def outNumber (t : OutTriple) : BitVec 24 := (t.c0 ++ t.c1 : BitVec 16) ++ t.c2

end Sys2Proof.Machine
end

