-- ==== Sys2Proof/Machine/Flags.lean ====
section
/-! DEFINITION. Everything of the block that acts as a flag (spec/10_state.md rule R58): the bits of `FAULT`, the bits of
the EV word, the predicates the operations compute and do not store, and the decodings of a draw (R111). -/

namespace Sys2Proof.Machine

/-! ### `FAULT` (R50, R110) -/

/-- The cause code of each fault is its bit number in `FAULT` (R110, R280). -/
def causeIoerr : Nat := 0

/-- ILLCMD (R110, R280). -/
def causeIllcmd : Nat := 1

/-- PROTO (R110, R280). -/
def causeProto : Nat := 2

/-- `FAULT` with only the bit of `cause` set. -/
def faultBit (cause : Nat) : BitVec 3 := 1#3 <<< cause

/-- `FAULT != 0` is the halted state (R50). -/
def halted (s : State) : Bool := s.fault != 0

/-! ### The event word (R58 (b), R108) -/

/-- The `valid` bit. -/
def eventValid (w : EventWord) : Bool := w.getLsbD 17

/-- The `kind` bit: 1 for Press. -/
def eventIsPress (w : EventWord) : Bool := w.getLsbD 16

/-! ### Predicates computed and not stored -/

/-- The dim test: the red channel only, strictly below DIM_THRESH (R58 (c), R192, R207 (h)). -/
def dim (p : Params) (t : Rgb) : Bool := decide (t.r.toNat < p.dimThresh.toNat)

/-- The timeout comparison: equality of the difference modulo 2^32 (R58 (d), R242, R248). -/
def timedOut (s : State) : Bool := (s.dcnt - s.dlast).toNat == s.cfg.displayTimeout

/-- An update is due when the incremented `LCNT` has reached `K(MODE)` (R189). -/
def updateDue (s : State) : Bool := decide (divisor s.cfg.toParams s.mode ≤ s.lcnt.toNat)

/-! ### Decodings of a draw (R111) -/

/-- `trigger(d)`. -/
def trigger (p : Params) (d : Word) : Bool := d.toNat % p.lightningOdds == 0

/-- `coin(d)`: false selects the A colour, true the B colour. -/
def coin (d : Word) : Bool := d.getLsbD 0

end Sys2Proof.Machine
end

