-- ==== Sys2Proof/Machine/Ops.lean ====
section
/-! DEFINITION. The primitives of spec/00_scope.md rule R22 as operations over the state, fault entry
(spec/60_exceptions.md rule R286) and the way out of it, reset (spec/70_reset_and_hazards.md rule R320). -/

namespace Sys2Proof.Machine

/-! ### Faults and reset -/

/-- `raise`: set the fault's bit; a set bit stays set (R21, R50, R286). Nothing else is recorded (R284). -/
def raiseFault (cause : Nat) (s : State) : State := { s with fault := s.fault ||| faultBit cause }

/-- One operation: ignored when the block is halted, otherwise run to completion (R23, R56, R286). -/
def perform (op : State → State) (s : State) : Host.Outcome State Fault Refusal :=
  .next (if halted s then s else op s)

/-- Reset, whatever its source: the state of R61 with the parameters as they are (R320). What lies outside the block stays:
the inputs and answers still lined up (log 7). -/
def applyReset (s : State) : State :=
  { State.resetWith s.cfg with
    inputs := s.inputs, scanScript := s.scanScript, drawScript := s.drawScript
    freeScans := s.freeScans, freeDraws := s.freeDraws }

/-! ### Row lines and time (R22, R31, R35) -/

/-- The `RESID` value of an age: one that has reached T_SETTLE_MIN_US is settled (R35). -/
def residualOf (p : Params) (us : Nat) : Residual := if p.settleMinUs ≤ us then .settled else .age us

/-- One `RESID` element after `us` more microseconds (R35). -/
def residualAfter (p : Params) (us : Nat) : Residual → Residual
  | .settled => .settled
  | .age n => residualOf p (n + us)

/-- `row_drive(r, level)`; deactivation starts the row's age at 0 (R22, R35). -/
def rowDrive (r : Nat) (level : RowLevel) (s : State) : State :=
  { s with
    rowOut := s.rowOut.set r level
    resid := if level = .inactive then s.resid.set r (residualOf s.cfg.toParams 0) else s.resid }

/-- `delay_us(n)`: changes nothing but the ages of `RESID` (R22, R35). -/
def delayUs (us : Nat) (s : State) : State :=
  { s with resid := s.resid.map (residualAfter s.cfg.toParams us) }

/-- `RESID[r]` is not settled. -/
def unsettled (s : State) (r : Nat) : Bool := s.resid.getD r .settled != .settled

/-! ### The environment's answers (R26, log 3, log 4) -/

/-- The answers of the `SCAN` about to run: the next ones lined up, or a free value. -/
def scanAnswer (s : State) : ScanAnswers := s.scanScript.headD (Config.freeScan s.freeScans)

/-- The state once those answers are taken. -/
def afterScanAnswer (s : State) : State :=
  { s with
    scanScript := s.scanScript.tail
    freeScans := if s.scanScript.isEmpty then s.freeScans + 1 else s.freeScans }

/-- `draw()`: the next value lined up, or a free value (R22, R199). -/
def drawValue (s : State) : Word := s.drawScript.headD (Config.freeDraw s.freeDraws)

/-- The state once that value is taken: no draw is used twice (R111, R199). -/
def afterDraw (s : State) : State :=
  { s with
    drawScript := s.drawScript.tail
    freeDraws := if s.drawScript.isEmpty then s.freeDraws + 1 else s.freeDraws }

/-- `K_t[r][c]` at the instant at which row `row` is sampled (R134, R135). -/
def keyReads (a : ScanAnswers) (row r c : Nat) : Bool := gridAt (a.keys.getD row []) r c

/-- `col_sample(c)` with row `r` active: what the key reads; where that is false and an unsettled other row has a key
reading pressed in the column, whatever the environment chooses (R134, R138). -/
def colSample (a : ScanAnswers) (r c : Nat) (s : State) : Bool :=
  keyReads a r r c ||
    (gridAt a.leaks r c &&
      (List.range s.cfg.rows).any fun r' => r' != r && unsettled s r' && keyReads a r r' c)

/-! ### Outputs (R22, R52 to R54) -/

/-- `emit_ev(w)`. -/
def emitEv (w : EventWord) (s : State) : State := { s with evPort := w, outEv := s.outEv ++ [w] }

/-- `emit_frame(f)`. -/
def emitFrame (f : List OutTriple) (s : State) : State := { s with outLed := s.outLed ++ [f] }

/-- `emit_draw(s)`. -/
def emitDraw (sp : Sprite) (s : State) : State := { s with outDraw := s.outDraw ++ [sp] }

/-- Assigning `SPRITE` always issues a draw request with the new value (R54, R244). -/
def showSprite (sp : Sprite) (s : State) : State := emitDraw sp { s with sprite := sp }

/-! ### Colours (R22, R183) -/

/-- `sat_sub(a, d)`. -/
def satSub (a d : Byte) : Byte := if d ≤ a then a - d else 0

/-- `fade(t, d)`. -/
def fade (t : Rgb) (d : Byte) : Rgb := ⟨satSub t.r d, satSub t.g d, satSub t.b d⟩

/-- `wheel(p)` (R180). -/
def wheel (p : Byte) : Rgb :=
  let n := p.toNat
  if n < 85 then ⟨BitVec.ofNat 8 (255 - 3 * n), 0, BitVec.ofNat 8 (3 * n)⟩
  else if n < 170 then ⟨0, BitVec.ofNat 8 (3 * (n - 85)), BitVec.ofNat 8 (255 - 3 * (n - 85))⟩
  else ⟨BitVec.ofNat 8 (3 * (n - 170)), BitVec.ofNat 8 (255 - 3 * (n - 170)), 0⟩

/-- `FRAME[i] <- t` (R20). -/
def writeLed (i : Nat) (t : Rgb) (s : State) : State := { s with frame := s.frame.set i t }

/-- "Fade every LED" (R183). -/
def fadeAll (d : Byte) (s : State) : State := { s with frame := s.frame.map (fade · d) }

end Sys2Proof.Machine
end

