-- ==== Sys2Proof/Machine/Display.lean ====
section
/-! DEFINITION. The display sprite selector: `DKEY`, `DTICK` (spec/43_display_animator.md). -/

namespace Sys2Proof.Machine

/-- The next tap sprite, from the current one (R240, R243). -/
def nextTap : Sprite → Sprite
  | .idle => .tap1
  | .tap1 => .tap2
  | .tap2 => .tap1

/-- `display_keypress()` (R240). -/
def displayKeypress (s : State) : State := showSprite (nextTap s.sprite) { s with dlast := s.dcnt }

/-- The meaning of `DKEY`. -/
def execDkey (s : State) : Host.Outcome State Fault Refusal := perform displayKeypress s

/-- `DTICK`: the comparison sees the incremented counter (R241). -/
def dtick (s : State) : State :=
  let counted := { s with dcnt := s.dcnt + 1 }
  if timedOut counted then showSprite .idle counted else counted

/-- The meaning of `DTICK`. -/
def execDtick (s : State) : Host.Outcome State Fault Refusal := perform dtick s

end Sys2Proof.Machine
end

