-- ==== Sys2Proof/Machine/Led.lean ====
section
/-! DEFINITION. The LED colour-pattern generator: `LMODE`, `LTICK`, `LKEY`, `LFRAME` (spec/42_led_animator.md). -/

namespace Sys2Proof.Machine

/-! ### `LMODE` (R184 to R188) -/

/-- Rainbow's seed for LED `i` (R186, R207 (f)). -/
def rainbowSeed (p : Params) (i : Nat) : Byte := BitVec.ofNat 8 (256 * i / p.numLeds)

/-- Rainbow's initialiser: seeds `WPOS`, leaves `FRAME` (R186). -/
def seedPositions (s : State) : State :=
  { s with wpos := (List.range s.cfg.numLeds).map (rainbowSeed s.cfg.toParams) }

/-- The other three initialisers: clear `FRAME`, leave `WPOS` (R187). -/
def clearFrame (s : State) : State := { s with frame := List.replicate s.cfg.numLeds Rgb.black }

/-- `LMODE m` (R184): the counters are zeroed for every `m` (R185), with no test of the old mode (R188). -/
def lmode (m : Mode) (s : State) : State :=
  let switched := { s with mode := m, lcnt := 0, cidx := 0, cphase := 0 }
  match m with
  | .rainbow => seedPositions switched
  | .lightning => clearFrame switched
  | .chase => clearFrame switched
  | .chase2 => clearFrame switched

/-- The meaning of `LMODE m`. -/
def execLmode (m : Mode) (s : State) : Host.Outcome State Fault Refusal := perform (lmode m) s

/-! ### Lighting (R193, R194, R196, R200) -/

/-- `CIDX <- (CIDX + 1) mod NUM_LEDS`. -/
def advanceIndex (s : State) : State := { s with cidx := BitVec.ofNat 16 (nextChaseIndex s) }

/-- `light(k)` (R196). -/
def light (k : Nat) (s : State) : State := writeLed k (wheel s.cphase) s

/-- `CPHASE <- (CPHASE + CSTEP) mod 256` (R196). -/
def advancePhase (s : State) : State := { s with cphase := s.cphase + s.cfg.cstep }

/-- Advance the index, light the LED there, advance the phase: what the Chase update and the Chase keypress share. -/
def chaseStep (s : State) : State :=
  let s₁ := advanceIndex s
  advancePhase (light s₁.cidx.toNat s₁)

/-! ### Updates (R191 to R195) -/

/-- Rainbow's update: each colour from the position before its advance (R191). -/
def updateRainbow (s : State) : State :=
  { s with frame := s.wpos.map wheel, wpos := s.wpos.map (· + 1) }

/-- The flash of Lightning's update: an LED is chosen, and lit if it is dim (R192). -/
def lightningFlash (s : State) : State :=
  let j := drawIndex s.cfg.toParams (drawValue s)
  let s₁ := afterDraw s
  if dim s.cfg.toParams (ledAt s₁ j) then
    writeLed j (if coin (drawValue s₁) then s.cfg.flashB else s.cfg.flashA) (afterDraw s₁)
  else s₁

/-- Lightning's update: a flash if the draw triggers, and the fade in any case (R192). -/
def updateLightning (s : State) : State :=
  let s₁ := afterDraw s
  fadeAll s.cfg.lfade (if trigger s.cfg.toParams (drawValue s) then lightningFlash s₁ else s₁)

/-- Chase's update (R193). -/
def updateChase (s : State) : State := fadeAll s.cfg.cfade (chaseStep s)

/-- Chase2's update: both LEDs from one value of the phase (R194). -/
def updateChase2 (s : State) : State :=
  let s₁ := advanceIndex s
  let i := s₁.cidx.toNat
  fadeAll s.cfg.cfade (advancePhase (light (oppositeIndex s.cfg.toParams i) (light i s₁)))

/-- The active mode's update function (R189). -/
def updateMode (s : State) : State :=
  match s.mode with
  | .rainbow => updateRainbow s
  | .lightning => updateLightning s
  | .chase => updateChase s
  | .chase2 => updateChase2 s

/-- `LTICK` (R189). -/
def ltick (s : State) : State :=
  let counted := { s with lcnt := s.lcnt + 1 }
  if updateDue counted then updateMode { counted with lcnt := 0 } else counted

/-- The meaning of `LTICK`. -/
def execLtick (s : State) : Host.Outcome State Fault Refusal := perform ltick s

/-! ### Keypress (R197 to R202) -/

/-- Lightning's reaction: index draw first, coin second; no dim test, no fade (R198). -/
def keypressLightning (s : State) : State :=
  let j := drawIndex s.cfg.toParams (drawValue s)
  let s₁ := afterDraw s
  writeLed j (if coin (drawValue s₁) then s.cfg.kflashB else s.cfg.kflashA) (afterDraw s₁)

/-- Chase's reaction: no fade (R200). -/
def keypressChase (s : State) : State := chaseStep s

/-- `led_keypress()` (R197); Rainbow and Chase2 ignore it (R201). -/
def ledKeypress (s : State) : State :=
  match s.mode with
  | .rainbow => s
  | .lightning => keypressLightning s
  | .chase => keypressChase s
  | .chase2 => s

/-- The meaning of `LKEY`. -/
def execLkey (s : State) : Host.Outcome State Fault Refusal := perform ledKeypress s

/-! ### `LFRAME` (R203) -/

/-- `LFRAME`: the frame in LED order, each pixel (g, r, b). -/
def lframe (s : State) : State := emitFrame (s.frame.map outTriple) s

/-- The meaning of `LFRAME`. -/
def execLframe (s : State) : Host.Outcome State Fault Refusal := perform lframe s

end Sys2Proof.Machine
end

