-- ==== Sys2Proof/Machine/Debouncer.lean ====
section
/-! DEFINITION. The debounce filter: `DEBOUNCE`, `EVPOP` (spec/41_debouncer.md). -/

namespace Sys2Proof.Machine

/-- What one key's comparator leaves, and whether it confirmed a change (R151). -/
structure KeyUpdate where
  stable : Bool
  prevRaw : Bool
  cnt : Half
  fired : Bool
deriving DecidableEq, Repr

/-- `key_update` of one key, from its raw bit and its elements of `STABLE`, `PREV_RAW` and `CNT` (R151). -/
def keyUpdate (threshold : Nat) (raw stable prevRaw : Bool) (cnt : Half) : KeyUpdate :=
  if raw = stable then { stable := stable, prevRaw := raw, cnt := 0, fired := false }
  else
    let counted : Half := if raw = prevRaw then cnt + 1 else 1
    if threshold ≤ counted.toNat then { stable := raw, prevRaw := raw, cnt := 0, fired := true }
    else { stable := stable, prevRaw := raw, cnt := counted, fired := false }

/-- The comparator of the key at (r, c): it reads that key's elements only (R157). -/
def keyUpdateAt (s : State) (r c : Nat) : KeyUpdate :=
  keyUpdate s.cfg.debounceN (gridAt s.snap r c) (gridAt s.stable r c) (gridAt s.prevRaw r c) (gridAt s.cnt r c)

/-- The event of the key at (r, c), if its change is confirmed; its kind is the new stable state (R150, R156). -/
def keyEvent (s : State) (r c : Nat) : Option EventWord :=
  let k := keyUpdateAt s r c
  if k.fired then some (eventWord k.stable r c) else none

/-- The events of one `DEBOUNCE` in row-major order (R152). -/
def debounceEvents (s : State) : List EventWord :=
  (keysInOrder s.cfg.toParams).filterMap fun k => keyEvent s k.1 k.2

/-- `DEBOUNCE` on a drained queue (R150). The keys are independent (R157), so each array is the comparator's result key by
key. -/
def debounceAll (s : State) : State :=
  { s with
    stable := gridOf s.cfg.toParams fun r c => (keyUpdateAt s r c).stable
    prevRaw := gridOf s.cfg.toParams fun r c => (keyUpdateAt s r c).prevRaw
    cnt := gridOf s.cfg.toParams fun r c => (keyUpdateAt s r c).cnt
    evq := debounceEvents s }

/-- `DEBOUNCE` (R150): PROTO, and nothing else, on a queue not drained (R163). -/
def debounce (s : State) : State := if s.evq.isEmpty then debounceAll s else raiseFault causeProto s

/-- The meaning of `DEBOUNCE`. -/
def execDebounce (s : State) : Host.Outcome State Fault Refusal := perform debounce s

/-- `EVPOP` (R160): an empty queue presents the none word (R162); a Press strobes the LED animator, then the display
animator, and only then is the event presented (R161). -/
def evpop (s : State) : State :=
  match s.evq with
  | [] => { s with evPort := eventNone }
  | e :: rest =>
    let taken := { s with evq := rest }
    emitEv e (if eventIsPress e then displayKeypress (ledKeypress taken) else taken)

/-- The meaning of `EVPOP`. -/
def execEvpop (s : State) : Host.Outcome State Fault Refusal := perform evpop s

end Sys2Proof.Machine
end

