-- ==== Sys2Proof/Machine/Scanner.lean ====
section
/-! DEFINITION. The matrix scanner: `SCAN` (spec/40_scanner.md). -/

namespace Sys2Proof.Machine

/-- The number of pin operations of one `SCAN`: per row, one activation, COLS samples, one deactivation (R130). -/
def pinOperations (p : Params) : Nat := p.rows * (p.cols + 2)

/-- A pin operation of this `SCAN` fails (R140). -/
def pinFailure (p : Params) (a : ScanAnswers) : Bool :=
  match a.failAt with
  | some k => decide (k < pinOperations p)
  | none => false

/-- One row of the loop of R130: activate, sample all columns, deactivate, wait the settle delay. -/
def scanRow (a : ScanAnswers) (r : Nat) (s : State) : List Bool × State :=
  let driven := rowDrive r .active s
  ((List.range s.cfg.cols).map (fun c => colSample a r c driven),
    delayUs s.cfg.settleUs (rowDrive r .inactive driven))

/-- The rows in the given order; the first component is `T` of R130. -/
def scanRows (a : ScanAnswers) : List Nat → State → Grid Bool × State
  | [], s => ([], s)
  | r :: rest, s =>
    let (row, s₁) := scanRow a r s
    let (grid, s₂) := scanRows a rest s₁
    (row :: grid, s₂)

/-- A scan in which every pin operation succeeds: ascending rows (R131), one commit at the end (R133). -/
def scanCompletes (a : ScanAnswers) (s : State) : State :=
  let (grid, s₁) := scanRows a (List.range s.cfg.rows) s
  { s₁ with snap := grid }

/-- A scan stopped by a failing pin operation: `SNAP` keeps its value, `ROW_OUT` and `RESID` are any values (R140, log 8). -/
def scanFails (a : ScanAnswers) (s : State) : State :=
  raiseFault causeIoerr
    { s with
      rowOut := (List.range s.cfg.rows).map fun r => a.leftRowOut.getD r .inactive
      resid := (List.range s.cfg.rows).map fun r =>
        residualAfter s.cfg.toParams 0 (a.leftResid.getD r .settled) }

/-- `SCAN` (R130). At least T_SETTLE_MIN_US has passed since the previous one, so every row is settled when it begins
(R35). -/
def scan (s : State) : State :=
  let a := scanAnswer s
  let begun := delayUs s.cfg.settleMinUs (afterScanAnswer s)
  if pinFailure s.cfg.toParams a then scanFails a begun else scanCompletes a begun

/-- The meaning of `SCAN`. -/
def execScan (s : State) : Host.Outcome State Fault Refusal := perform scan s

end Sys2Proof.Machine
end

