-- ==== Sys2Proof/Machine/Dispatch.lean ====
section
/-! DEFINITION. The dispatch of an operation to its meaning, one arm per row of spec/opcode_table.json. -/

namespace Sys2Proof.Machine

/-- What an operation does (spec/30_encoding.md rule R103, column "semantics"). -/
def exec (i : Instr) (s : State) : Host.Outcome State Fault Refusal :=
  match i with
  | .scan => Sys2Proof.Machine.execScan s
  | .debounce => Sys2Proof.Machine.execDebounce s
  | .evpop => Sys2Proof.Machine.execEvpop s
  | .ltick => Sys2Proof.Machine.execLtick s
  | .lkey => Sys2Proof.Machine.execLkey s
  | .lframe => Sys2Proof.Machine.execLframe s
  | .lmode m => Sys2Proof.Machine.execLmode m s
  | .dtick => Sys2Proof.Machine.execDtick s
  | .dkey => Sys2Proof.Machine.execDkey s

end Sys2Proof.Machine
end

