-- ==== Sys2Proof/Machine/Command.lean ====
section
/-! DEFINITION. What the block does with the next thing its host side delivers: a command word (spec/30_encoding.md rules
R104, R105) or a reset (spec/70_reset_and_hazards.md rule R320). -/

namespace Sys2Proof.Machine

/-- A command word: the operation it spells, or ILLCMD (R104, R105, R283). Halted, either is ignored (R286). -/
def runCommand (w : Byte) (s : State) : Host.Outcome State Fault Refusal :=
  match decode w with
  | .ok i => exec i s
  | .error _ => perform (raiseFault causeIllcmd) s

/-- One input. An operation that a reset cuts short has no effect that survives the reset (R320). -/
def runInput (input : HostInput) (s : State) : Host.Outcome State Fault Refusal :=
  match input with
  | .command w => runCommand w s
  | .reset _ => .next (applyReset s)
  | .commandCutByReset _ _ => .next (applyReset s)

/-- The next input; with none delivered the block holds its state (R303, R321, log 6). -/
def takeInput (s : State) : Host.Outcome State Fault Refusal :=
  match s.inputs with
  | [] => .next s
  | input :: rest => runInput input { s with inputs := rest }

/-- The host issues a command word next (log 1). -/
def issueFirst (w : Byte) (s : State) : State := { s with inputs := .command w :: s.inputs }

end Sys2Proof.Machine
end

