-- ==== Sys2Proof/Machine/Step.lean ====
section
/-! DEFINITION. One step of the block: one input of its host side, run to completion (spec/00_scope.md rule R7). -/

namespace Sys2Proof.Machine

/-- One step. -/
def step (s : State) : Host.Outcome State Fault Refusal := takeInput s

/-- `s` with the command word of `nbits` bits `w` issued next, so that the very next step runs it (log 1). -/
def State.withFetchWord (s : State) (nbits w : Nat) : State := issueFirst (commandByte nbits w) s

end Sys2Proof.Machine
end

