-- ==== Sys2Proof/Machine/TickSequence.lean ====
section
/-! DEFINITION. The pseudo-operations and the host's per-tick sequence (spec/30_encoding.md rule R114,
spec/44_tick_sequence.md rules R260 and R264), and runs of several operations. -/

namespace Sys2Proof.Machine

/-- `EVDRAIN` (R114). -/
def evdrain (p : Params) : List Instr := List.replicate (p.rows * p.cols) .evpop

/-- The custom action of a tick, as it reaches the block (R264). -/
inductive CustomAction where
  | switchMode (m : Mode)
  | firmwareReset
deriving DecidableEq, Repr

/-- The commands of a tick before the custom action (R260). -/
def tickFront (p : Params) : List Instr := [.scan, .debounce] ++ evdrain p

/-- The commands of a tick after it (R260). -/
def tickBack : List Instr := [.ltick, .dtick, .lframe]

/-- `TICK` and `TICK m` (R114, R260). -/
def tick (p : Params) (m : Option Mode) : List Instr :=
  tickFront p ++ (match m with
    | none => []
    | some m => [.lmode m]) ++ tickBack

/-- What the host delivers in one tick; a firmware-reset request becomes a reset and the rest of the tick is not run
(R264). -/
def tickInputs (p : Params) (action : Option CustomAction) : List HostInput :=
  match action with
  | none => (tick p none).map fun i => .command (encode i)
  | some (.switchMode m) => (tick p (some m)).map fun i => .command (encode i)
  | some .firmwareReset => ((tickFront p).map fun i => .command (encode i)) ++ [.reset .firmwareRequest]

/-- Several operations one after the other (R57, R80). -/
def execAll : List Instr → State → Host.Outcome State Fault Refusal
  | [], s => .next s
  | i :: rest, s =>
    match exec i s with
    | .next t => execAll rest t
    | .fault f => .fault f
    | .refused r => .refused r

end Sys2Proof.Machine
end

