-- ==== Sys2Proof/Safety.lean ====
section
/-! DEFINITION. What counts as a good state and a good run of the block: the invariants of spec/10_state.md rule R60 and of
spec/41_debouncer.md rule R158, the duties of the host (spec/44_tick_sequence.md rule R267), and the parts of the state each
unit may look at (spec/00_scope.md rule R6). -/

namespace Sys2Proof.Machine

/-! ### Good states -/

/-- A key-space array has its ROWS x COLS shape (R60 (a)). -/
abbrev GridShape {α : Type} (p : Params) (g : Grid α) : Prop :=
  g.length = p.rows ∧ ∀ row ∈ g, row.length = p.cols

/-- Row-major order of two events: by row, within a row by column (R72 (a)). -/
abbrev EventBefore (a b : EventWord) : Prop :=
  eventRow a < eventRow b ∨ (eventRow a = eventRow b ∧ eventCol a < eventCol b)

/-- Every array has its length (R60 (a)). -/
structure Shapes (s : State) : Prop where
  rowOut : s.rowOut.length = s.cfg.rows
  resid : s.resid.length = s.cfg.rows
  snap : GridShape s.cfg.toParams s.snap
  stable : GridShape s.cfg.toParams s.stable
  prevRaw : GridShape s.cfg.toParams s.prevRaw
  cnt : GridShape s.cfg.toParams s.cnt
  frame : s.frame.length = s.cfg.numLeds
  wpos : s.wpos.length = s.cfg.numLeds

/-- The counters are in range (R60 (c) to (e)), and `CNT` is 0 exactly where `PREV_RAW` equals `STABLE` (R158). -/
structure CountersInRange (s : State) : Prop where
  cnt : ∀ r < s.cfg.rows, ∀ c < s.cfg.cols, (gridAt s.cnt r c).toNat < s.cfg.debounceN
  cntZero : ∀ r < s.cfg.rows, ∀ c < s.cfg.cols,
    gridAt s.cnt r c = 0 ↔ gridAt s.prevRaw r c = gridAt s.stable r c
  lcnt : s.lcnt.toNat < divisor s.cfg.toParams s.mode
  cidx : s.cidx.toNat < s.cfg.numLeds

/-- The queue holds valid events of existing keys in row-major order, one a key, each of the kind of its key's stable state
(R60 (g), R108, R156). -/
structure QueueInOrder (s : State) : Prop where
  length : s.evq.length ≤ s.cfg.rows * s.cfg.cols
  sorted : s.evq.Pairwise EventBefore
  event : ∀ e ∈ s.evq, eventRow e < s.cfg.rows ∧ eventCol e < s.cfg.cols ∧
    e = eventWord (gridAt s.stable (eventRow e) (eventCol e)) (eventRow e) (eventCol e)

/-- The invariant of the block: R60 (a) to (h), R158, R285 (at most one fault bit), R35 (an age that has reached the settling
time is settled) and R52 (the EV port shows the none word or the latest event). -/
structure Inv (s : State) : Prop where
  shapes : Shapes s
  counters : CountersInRange s
  queue : QueueInOrder s
  rowsIdle : s.fault.getLsbD causeIoerr = false → ∀ l ∈ s.rowOut, l = .inactive
  ages : ∀ us, Residual.age us ∈ s.resid → us < s.cfg.settleMinUs
  oneFault : s.fault = 0 ∨ s.fault = faultBit causeIoerr ∨ s.fault = faultBit causeIllcmd ∨
    s.fault = faultBit causeProto
  port : s.evPort = eventNone ∨ s.outEv.getLast? = some s.evPort

/-- The sprite is Idle unless the timeout is still to come (R246 (c)). -/
def SpriteAwaitsTimeout (s : State) : Prop :=
  s.sprite ≠ .idle → (s.dcnt - s.dlast).toNat < s.cfg.displayTimeout

/-! ### Good runs -/

/-- No reset is the next thing the host side delivers. -/
def NoResetNext (s : State) : Prop :=
  ∀ w src rest, s.inputs ≠ .reset src :: rest ∧ s.inputs ≠ .commandCutByReset w src :: rest

/-- No pin operation of the next `SCAN` fails (R140). -/
def PinsWork (s : State) : Prop :=
  ∀ k, (scanAnswer s).failAt = some k → pinOperations s.cfg.toParams ≤ k

/-- The settle delay is long enough (R267, R327). -/
def SettlesInTime (p : Params) : Prop := p.settleMinUs ≤ p.settleUs

/-- The host's duty for one command (R267): a legal word, `DEBOUNCE` only on a drained queue; and, of the environment, that
the pins work. -/
def CommandSafe (w : Byte) (s : State) : Prop :=
  match decode w with
  | .ok .debounce => s.evq = []
  | .ok .scan => PinsWork s
  | .ok _ => True
  | .error _ => False

/-! ### What each unit may look at (R6) -/

/-- Everything the scanner and the debouncer may read or write. -/
structure KeySide where
  cfg : Config
  fault : BitVec 3
  rowOut : List RowLevel
  resid : List Residual
  snap : Grid Bool
  stable : Grid Bool
  prevRaw : Grid Bool
  cnt : Grid Half
  evq : List EventWord
  evPort : EventWord
  outEv : List EventWord
  scanScript : List ScanAnswers
  freeScans : Nat
deriving DecidableEq, Repr

/-- The key side of a state. -/
def keySide (s : State) : KeySide where
  cfg := s.cfg
  fault := s.fault
  rowOut := s.rowOut
  resid := s.resid
  snap := s.snap
  stable := s.stable
  prevRaw := s.prevRaw
  cnt := s.cnt
  evq := s.evq
  evPort := s.evPort
  outEv := s.outEv
  scanScript := s.scanScript
  freeScans := s.freeScans

/-- Everything the LED animator may read or write, the keypress strobe apart. -/
structure LedSide where
  cfg : Config
  frame : List Rgb
  wpos : List Byte
  lcnt : Half
  cidx : Half
  cphase : Byte
  mode : Mode
  outLed : List (List OutTriple)
  drawScript : List Word
  freeDraws : Nat
deriving DecidableEq, Repr

/-- The LED side of a state. -/
def ledSide (s : State) : LedSide where
  cfg := s.cfg
  frame := s.frame
  wpos := s.wpos
  lcnt := s.lcnt
  cidx := s.cidx
  cphase := s.cphase
  mode := s.mode
  outLed := s.outLed
  drawScript := s.drawScript
  freeDraws := s.freeDraws

/-- Everything the display animator may read or write, the keypress strobe apart. -/
structure DisplaySide where
  cfg : Config
  sprite : Sprite
  dcnt : Word
  dlast : Word
  outDraw : List Sprite
deriving DecidableEq, Repr

/-- The display side of a state. -/
def displaySide (s : State) : DisplaySide where
  cfg := s.cfg
  sprite := s.sprite
  dcnt := s.dcnt
  dlast := s.dlast
  outDraw := s.outDraw

/-- An operation of the LED animator. -/
def isLedOp : Instr → Bool
  | .ltick => true
  | .lkey => true
  | .lframe => true
  | .lmode _ => true
  | .scan => false
  | .debounce => false
  | .evpop => false
  | .dtick => false
  | .dkey => false

/-- An operation of the display animator. -/
def isDisplayOp : Instr → Bool
  | .dtick => true
  | .dkey => true
  | .scan => false
  | .debounce => false
  | .evpop => false
  | .ltick => false
  | .lkey => false
  | .lframe => false
  | .lmode _ => false

end Sys2Proof.Machine
end

