-- ==== Sys2Proof/Certificates/Slice0/Obligations.lean ====
section
/-! DEFINITION. The statements about the block, from the numbered rules of spec/. -/

open Sys2Proof Sys2Proof.Machine

/-! ### Encoding (spec/30_encoding.md) -/

/-- Decoding and encoding are inverse to each other on every well-formed instruction and every legal word (R103, R104). -/
def Obligations.DecodeAndEncodeAreInverse : Prop :=
  (∀ i : Instr, i.wellFormed = true → decode (encode i) = .ok i) ∧
  (∀ (w : Byte) (i : Instr), decode w = .ok i → encode i = w)

/-- The legal words are the twelve of R103; every other word is rejected (R105). -/
def Obligations.LegalWordsAreTheTwelve : Prop :=
  ∀ w : Byte, (∃ i, decode w = .ok i) ↔
    w ∈ ([0x10, 0x20, 0x21, 0x30, 0x31, 0x32, 0x34, 0x35, 0x36, 0x37, 0x40, 0x41] : List Byte)

/-- Words written out from R103, one or more of every family, decode to the instruction they stand for. -/
def Obligations.SampleWordsDecode : Prop :=
  decode 0b00010000 = .ok .scan ∧ decode 0b00100001 = .ok .evpop ∧ decode 0b00110010 = .ok .lframe ∧
  decode 0b00110101 = .ok (.lmode .lightning) ∧ decode 0b01000001 = .ok .dkey ∧
  decode 0b00110011 = .error (.noSuchFunct 3 3)

/-! ### The step -/

/-- A step runs the next input on the state with that input taken; for a command word that decodes, this is the instruction
it decodes to; and `withFetchWord` makes the very next step run an instruction (R55, R104; that inputs stand in the state is
the model's choice: log 1). -/
def Obligations.StepRunsTheDecodedInstruction : Prop :=
  (∀ (s : State) (input : HostInput) (rest : List HostInput),
    s.inputs = input :: rest → step s = runInput input { s with inputs := rest }) ∧
  (∀ (s : State) (w : Byte) (rest : List HostInput) (i : Instr),
    s.inputs = .command w :: rest → decode w = .ok i → i.wellFormed = true →
    step s = exec i { s with inputs := rest }) ∧
  (∀ (s : State) (w : Byte) (i : Instr), decode w = .ok i → step (s.withFetchWord 8 w.toNat) = exec i s)

/-- A step with nothing delivered by the host holds the state (R303; the model's choice of what a step without input is:
log 6). -/
def Obligations.StepWithoutInputHoldsTheState : Prop :=
  ∀ s : State, s.inputs = [] → step s = .next s

/-- An illegal word given to a block that is not halted raises ILLCMD, changes nothing else, and every operation after it is
ignored (R283). -/
def Obligations.IllegalWordRaisesIllcmd : Prop :=
  ∀ (s : State) (w : Byte), s.fault = 0 →
    w ∉ ([0x10, 0x20, 0x21, 0x30, 0x31, 0x32, 0x34, 0x35, 0x36, 0x37, 0x40, 0x41] : List Byte) →
    ∃ t, runInput (.command w) s = .next t ∧ t = { s with fault := 0b010 } ∧ ∀ i, exec i t = .next t

/-- A halted block ignores every command word, legal or not, however many are issued, and every operation (R286). -/
def Obligations.HaltedBlockIgnoresEveryCommand : Prop :=
  (∀ (ws : List Byte) (rest : List HostInput) (s : State),
    s.fault ≠ 0 → s.inputs = ws.map .command ++ rest →
    Host.Core.run Sys2Proof.core ws.length s = .next { s with inputs := rest }) ∧
  (∀ (i : Instr) (s : State), s.fault ≠ 0 → exec i s = .next s)

/-- A reset, whatever its source and whether or not it cuts an operation short, puts every register into the state of R61,
empties the traces and leaves the parameters. -/
def Obligations.ResetGivesTheResetValues : Prop :=
  ∀ (s : State) (input : HostInput),
    (∃ src, input = .reset src ∨ ∃ w, input = .commandCutByReset w src) →
    ∃ t, runInput input s = .next t ∧ t.cfg = s.cfg ∧ Shapes t ∧
      (∀ l ∈ t.rowOut, l = .inactive) ∧ (∀ a ∈ t.resid, a = .settled) ∧
      (∀ r < s.cfg.rows, ∀ c < s.cfg.cols, gridAt t.snap r c = false ∧ gridAt t.stable r c = false ∧
        gridAt t.prevRaw r c = false ∧ gridAt t.cnt r c = 0) ∧
      t.evq = [] ∧ (∀ x ∈ t.frame, x = ⟨0, 0, 0⟩) ∧ (∀ x ∈ t.wpos, x = 0) ∧
      t.lcnt = 0 ∧ t.cidx = 0 ∧ t.cphase = 0 ∧ t.mode = .rainbow ∧ t.sprite = .idle ∧ t.dcnt = 0 ∧ t.dlast = 0 ∧
      t.fault = 0 ∧ t.evPort = 0 ∧ t.outEv = [] ∧ t.outLed = [] ∧ t.outDraw = []

/-- Without a reset, a step clears no bit of `FAULT` (R50, R287). -/
def Obligations.FaultBitsAreSticky : Prop :=
  ∀ s t : State, NoResetNext s → step s = .next t → ∀ k < 3, s.fault.getLsbD k = true → t.fault.getLsbD k = true

/-- A command leaves a running block running exactly when the host and the pins do what R280 asks of them: no other operation
can fault. -/
def Obligations.BlockHaltsOnlyOnTheThreeCauses : Prop :=
  ∀ (s : State) (w : Byte) (rest : List HostInput),
    s.fault = 0 → s.inputs = .command w :: rest → ∃ t, step s = .next t ∧ (t.fault = 0 ↔ CommandSafe w s)

/-! ### The scanner (spec/40_scanner.md) -/

/-- `SCAN` whose pins work, with a settle delay that is long enough: the snapshot is exactly the matrix, each row at its own
instant; every row line is inactive and settled again, and nothing else changes (R130, R138). -/
def Obligations.SettledScanRecordsTheMatrix : Prop :=
  ∀ s : State, s.fault = 0 → PinsWork s → SettlesInTime s.cfg.toParams →
    s.rowOut.length = s.cfg.rows → s.resid.length = s.cfg.rows →
    ∃ t, exec .scan s = .next t ∧ GridShape s.cfg.toParams t.snap ∧
      (∀ r < s.cfg.rows, ∀ c < s.cfg.cols, gridAt t.snap r c = keyReads (scanAnswer s) r r c) ∧
      t = { s with
        snap := t.snap
        rowOut := List.replicate s.cfg.rows .inactive
        resid := List.replicate s.cfg.rows .settled
        scanScript := s.scanScript.tail
        freeScans := if s.scanScript = [] then s.freeScans + 1 else s.freeScans }

/-- `SCAN` whose pins work, whatever the settle delay: a bit of the snapshot is set exactly when the key reads pressed, or
when the environment lets an earlier row leak that has a key pressed in the column and is younger than the settling time;
a row's age at the end counts the delays since its own deactivation (R35, R130, R137, R138). That the leaking key is judged on
the matrix at the instant of the sample is DEDUCED (log 17); that the answers are lined up in `scanScript` or counted by
`freeScans` is the model's choice (log 3). -/
def Obligations.ScanSampleIsTheKeyOrALeak : Prop :=
  ∀ s : State, s.fault = 0 → PinsWork s → s.rowOut.length = s.cfg.rows → s.resid.length = s.cfg.rows →
    ∃ t, exec .scan s = .next t ∧ GridShape s.cfg.toParams t.snap ∧
      (∀ r < s.cfg.rows, ∀ c < s.cfg.cols, gridAt t.snap r c = true ↔
        keyReads (scanAnswer s) r r c = true ∨
          (gridAt (scanAnswer s).leaks r c = true ∧
            ∃ r' < r, (r - r') * s.cfg.settleUs < s.cfg.settleMinUs ∧ keyReads (scanAnswer s) r r' c = true)) ∧
      t.resid.length = s.cfg.rows ∧
      (∀ r < s.cfg.rows, t.resid.getD r .settled =
        if s.cfg.settleMinUs ≤ (s.cfg.rows - r) * s.cfg.settleUs then .settled
        else .age ((s.cfg.rows - r) * s.cfg.settleUs)) ∧
      t = { s with
        snap := t.snap
        rowOut := List.replicate s.cfg.rows .inactive
        resid := t.resid
        scanScript := s.scanScript.tail
        freeScans := if s.scanScript = [] then s.freeScans + 1 else s.freeScans }

/-- `SCAN` with a failing pin operation: IOERR is raised, `SNAP` keeps its value, and nothing but `ROW_OUT` and `RESID` (and
the answer taken) changes (R140, R281). -/
def Obligations.PinFailureRaisesIoerr : Prop :=
  ∀ (s : State) (k : Nat), s.fault = 0 → (scanAnswer s).failAt = some k →
    k < s.cfg.rows * (s.cfg.cols + 2) →
    ∃ t, exec .scan s = .next t ∧ t.rowOut.length = s.cfg.rows ∧ t.resid.length = s.cfg.rows ∧
      t = { s with
        fault := 0b001
        rowOut := t.rowOut
        resid := t.resid
        scanScript := s.scanScript.tail
        freeScans := if s.scanScript = [] then s.freeScans + 1 else s.freeScans }

/-! ### The debouncer (spec/41_debouncer.md) -/

/-- `DEBOUNCE` on a drained queue runs R151's comparator on every key and changes nothing but `STABLE`, `PREV_RAW`, `CNT` and
`EVQ`. -/
def Obligations.DebounceRunsTheComparatorOnEveryKey : Prop :=
  ∀ s : State, s.fault = 0 → s.evq = [] →
    ∃ t, exec .debounce s = .next t ∧
      GridShape s.cfg.toParams t.stable ∧ GridShape s.cfg.toParams t.prevRaw ∧ GridShape s.cfg.toParams t.cnt ∧
      (∀ r < s.cfg.rows, ∀ c < s.cfg.cols,
        gridAt t.prevRaw r c = gridAt s.snap r c ∧
        (gridAt s.snap r c = gridAt s.stable r c →
          gridAt t.stable r c = gridAt s.stable r c ∧ gridAt t.cnt r c = 0) ∧
        (gridAt s.snap r c ≠ gridAt s.stable r c →
          ∀ n : Half, n = (if gridAt s.snap r c = gridAt s.prevRaw r c then gridAt s.cnt r c + 1 else 1) →
            (s.cfg.debounceN ≤ n.toNat → gridAt t.stable r c = gridAt s.snap r c ∧ gridAt t.cnt r c = 0) ∧
            (n.toNat < s.cfg.debounceN → gridAt t.stable r c = gridAt s.stable r c ∧ gridAt t.cnt r c = n))) ∧
      t = { s with stable := t.stable, prevRaw := t.prevRaw, cnt := t.cnt, evq := t.evq }

/-- The events `DEBOUNCE` queues are exactly the changes of `STABLE`, each of the kind of the new stable state, at most one a
key, in ascending row-major order (R150, R152, R155, R156). -/
def Obligations.DebounceQueuesTheConfirmedChangesInOrder : Prop :=
  ∀ s : State, s.fault = 0 → s.evq = [] →
    ∃ t, exec .debounce s = .next t ∧ t.evq.length ≤ s.cfg.rows * s.cfg.cols ∧ t.evq.Pairwise EventBefore ∧
      ∀ e : EventWord, e ∈ t.evq ↔ ∃ r < s.cfg.rows, ∃ c < s.cfg.cols,
        gridAt t.stable r c ≠ gridAt s.stable r c ∧ e = eventWord (gridAt t.stable r c) r c

/-- `DEBOUNCE` on a queue not drained raises PROTO; no other state changes, and every operation after it is ignored, so the
events stay in the queue (R163, R282). -/
def Obligations.UndrainedQueueRaisesProto : Prop :=
  ∀ s : State, s.fault = 0 → s.evq ≠ [] →
    ∃ t, exec .debounce s = .next t ∧ t = { s with fault := 0b100 } ∧ ∀ i, exec i t = .next t

/-- Given that `CNT` is 0 exactly where `PREV_RAW` equals `STABLE`, the comparator does the same without `PREV_RAW` (R158). -/
def Obligations.ComparatorNeedsNoPreviousRaw : Prop :=
  ∀ (threshold : Nat) (raw stable prevRaw : Bool) (cnt : Half),
    threshold ≤ 65535 → cnt.toNat < threshold → (cnt = 0 ↔ prevRaw = stable) →
    keyUpdate threshold raw stable prevRaw cnt =
      if raw = stable then { stable := stable, prevRaw := raw, cnt := 0, fired := false }
      else if threshold ≤ cnt.toNat + 1 then { stable := raw, prevRaw := raw, cnt := 0, fired := true }
      else { stable := stable, prevRaw := raw, cnt := cnt + 1, fired := false }

/-- A key that starts settled and then reads the opposite of its stable state in every scan of a run of `SCAN`, `DEBOUNCE`,
`EVDRAIN` groups (the front part of a tick): before DEBOUNCE_N scans nothing is confirmed and `CNT` counts the scans; from the DEBOUNCE_N-th on the stable state
is the new one; and over the whole run exactly one event of that key is handed over, of the new kind, and only if the run
reached DEBOUNCE_N scans (R153, R155, R159). The scans' answers are lined up in `scanScript` (the model's choice: log 3). -/
def Obligations.ChangeIsConfirmedAtTheNthDifferingScan : Prop :=
  ∀ (s : State) (r c : Nat) (raw : Bool), Inv s → s.fault = 0 → s.evq = [] →
    SettlesInTime s.cfg.toParams → r < s.cfg.rows → c < s.cfg.cols →
    (∀ a ∈ s.scanScript, a.failAt = none ∧ keyReads a r r c = raw) →
    gridAt s.cnt r c = 0 → raw ≠ gridAt s.stable r c →
    ∃ t new, execAll (List.replicate s.scanScript.length (tickFront s.cfg.toParams)).flatten s = .next t ∧
      t.fault = 0 ∧ t.evq = [] ∧ t.scanScript = [] ∧
      (s.scanScript.length < s.cfg.debounceN →
        gridAt t.stable r c = gridAt s.stable r c ∧ (gridAt t.cnt r c).toNat = s.scanScript.length) ∧
      (s.cfg.debounceN ≤ s.scanScript.length → gridAt t.stable r c = raw ∧ gridAt t.cnt r c = 0) ∧
      t.outEv = s.outEv ++ new ∧
      new.filter (fun e => eventRow e == r && eventCol e == c) =
        if s.cfg.debounceN ≤ s.scanScript.length then [eventWord raw r c] else []

/-- `EVPOP` on an empty queue presents the none word and changes nothing else (R162). -/
def Obligations.PopOfEmptyQueuePresentsNone : Prop :=
  ∀ s : State, s.fault = 0 → s.evq = [] → exec .evpop s = .next { s with evPort := 0 }

/-- `EVPOP` hands over the head of the queue: a Press runs the LED reaction, then the display reaction, and only then is
presented; a Release is presented and nothing else changes (R160, R161). -/
def Obligations.PopStrobesTheAnimatorsOnAPress : Prop :=
  ∀ (s : State) (e : EventWord) (rest : List EventWord), s.fault = 0 → s.evq = e :: rest →
    (e.getLsbD 16 = true → ∃ a b, exec .lkey { s with evq := rest } = .next a ∧ exec .dkey a = .next b ∧
      exec .evpop s = .next { b with evPort := e, outEv := s.outEv ++ [e] }) ∧
    (e.getLsbD 16 = false →
      exec .evpop s = .next { s with evq := rest, evPort := e, outEv := s.outEv ++ [e] })

/-- `EVDRAIN` empties every queue within its bound, hands the events over in order, and leaves the scanner's and the
comparator's state alone (R114, R160). -/
def Obligations.EvdrainEmptiesTheQueue : Prop :=
  ∀ s : State, s.fault = 0 → s.evq.length ≤ s.cfg.rows * s.cfg.cols →
    ∃ t, execAll (evdrain s.cfg.toParams) s = .next t ∧ t.evq = [] ∧ t.outEv = s.outEv ++ s.evq ∧
      t.fault = 0 ∧ t.snap = s.snap ∧ t.stable = s.stable ∧ t.prevRaw = s.prevRaw ∧ t.cnt = s.cnt ∧
      t.rowOut = s.rowOut ∧ t.resid = s.resid ∧ t.scanScript = s.scanScript ∧
      ((∃ e ∈ s.evq, e.getLsbD 16 = true) → t.dlast = s.dcnt)

/-! ### The LED animator (spec/42_led_animator.md) -/

/-- The colour wheel: in each segment the named channel is 0 and the other two sum to 255, so no colour is black; the cycle
closes; the values at the boundaries and their neighbours (R182). -/
def Obligations.WheelTracesTheHueCycle : Prop :=
  (∀ p : Byte, (p.toNat < 85 → (wheel p).g = 0 ∧ (wheel p).r.toNat + (wheel p).b.toNat = 255) ∧
    (85 ≤ p.toNat ∧ p.toNat < 170 → (wheel p).r = 0 ∧ (wheel p).g.toNat + (wheel p).b.toNat = 255) ∧
    (170 ≤ p.toNat → (wheel p).b = 0 ∧ (wheel p).r.toNat + (wheel p).g.toNat = 255) ∧ wheel p ≠ ⟨0, 0, 0⟩) ∧
  wheel 0 = ⟨255, 0, 0⟩ ∧ wheel 1 = ⟨252, 0, 3⟩ ∧ wheel 84 = ⟨3, 0, 252⟩ ∧ wheel 85 = ⟨0, 0, 255⟩ ∧
  wheel 86 = ⟨0, 3, 252⟩ ∧ wheel 169 = ⟨0, 252, 3⟩ ∧ wheel 170 = ⟨0, 255, 0⟩ ∧ wheel 171 = ⟨3, 252, 0⟩ ∧
  wheel 254 = ⟨252, 3, 0⟩ ∧ wheel 255 = ⟨255, 0, 0⟩

/-- Fade lowers each channel by the decrement and saturates at 0; a decrement of 0 changes nothing; with any other, 255 fades
or more leave black; "fade every LED" fades each LED by itself (R183). -/
def Obligations.FadeSaturatesAtBlack : Prop :=
  (∀ (t : Rgb) (d : Byte), (fade t d).r.toNat = t.r.toNat - d.toNat ∧ (fade t d).g.toNat = t.g.toNat - d.toNat ∧
    (fade t d).b.toNat = t.b.toNat - d.toNat) ∧
  (∀ t : Rgb, fade t 0 = t) ∧
  (∀ (t : Rgb) (d : Byte) (n : Nat), d ≠ 0 → 255 ≤ n → (fun x => fade x d)^[n] t = ⟨0, 0, 0⟩) ∧
  (∀ (d : Byte) (s : State), ∀ i < s.frame.length, ledAt (fadeAll d s) i = fade (ledAt s i) d)

/-- `LMODE Rainbow` selects the mode, zeroes the counters, spaces the wheel positions evenly and changes nothing else, the frame
included; so it does when Rainbow is the mode already (R184 to R186, R188). -/
def Obligations.RainbowModeSeedsThePositions : Prop :=
  ∀ s : State, s.fault = 0 →
    ∃ t, exec (.lmode .rainbow) s = .next t ∧ t.wpos.length = s.cfg.numLeds ∧
      (∀ i < s.cfg.numLeds, (t.wpos.getD i 0).toNat = 256 * i / s.cfg.numLeds) ∧
      t = { s with mode := .rainbow, lcnt := 0, cidx := 0, cphase := 0, wpos := t.wpos }

/-- `LMODE` to any of the other three modes leaves every LED black, zeroes the counters and changes nothing else, whatever the
mode was (R184, R185, R187, R188). -/
def Obligations.OtherModesClearTheFrame : Prop :=
  ∀ (s : State) (m : Mode), s.fault = 0 → m ≠ .rainbow →
    exec (.lmode m) s = .next { s with
      mode := m, lcnt := 0, cidx := 0, cphase := 0, frame := List.replicate s.cfg.numLeds ⟨0, 0, 0⟩ }

/-- `LTICK` short of the mode's divisor only counts (R189, R190). -/
def Obligations.TickShortOfTheDivisorOnlyCounts : Prop :=
  ∀ s : State, s.fault = 0 → s.lcnt.toNat + 1 < divisor s.cfg.toParams s.mode →
    exec .ltick s = .next { s with lcnt := s.lcnt + 1 }

/-- Rainbow's update: each LED shows the wheel at its position before the advance, and each position advances by one modulo
256 (R191). -/
def Obligations.RainbowUpdateShowsThenAdvances : Prop :=
  ∀ s : State, s.fault = 0 → s.mode = .rainbow → s.lcnt.toNat + 1 = divisor s.cfg.toParams s.mode →
    s.wpos.length = s.cfg.numLeds →
    ∃ t, exec .ltick s = .next t ∧ t.frame.length = s.cfg.numLeds ∧ t.wpos.length = s.cfg.numLeds ∧
      (∀ i < s.cfg.numLeds, ledAt t i = wheel (s.wpos.getD i 0) ∧
        (t.wpos.getD i 0).toNat = ((s.wpos.getD i 0).toNat + 1) % 256) ∧
      t = { s with lcnt := 0, frame := t.frame, wpos := t.wpos }

/-- Lightning's update: one draw decides the trigger; a trigger takes a second draw for the LED; a dim LED takes a third for
the colour and is flashed; then, in every case, every LED is faded; nothing else changes (R192, R195, R199). -/
def Obligations.LightningUpdateFlashesADimLedThenFades : Prop :=
  ∀ s : State, s.fault = 0 → s.mode = .lightning → s.lcnt.toNat + 1 = divisor s.cfg.toParams s.mode →
    s.frame.length = s.cfg.numLeds →
    ∀ s₁ s₂ s₃ : State, ∀ j : Nat, s₁ = afterDraw s → s₂ = afterDraw s₁ → s₃ = afterDraw s₂ →
    j = (drawValue s₁).toNat % s.cfg.numLeds →
    ∃ t, exec .ltick s = .next t ∧ t.frame.length = s.cfg.numLeds ∧
      ((drawValue s).toNat % s.cfg.lightningOdds ≠ 0 →
        (∀ i < s.cfg.numLeds, ledAt t i = fade (ledAt s i) s.cfg.lfade) ∧
        t = { s₁ with lcnt := 0, frame := t.frame }) ∧
      ((drawValue s).toNat % s.cfg.lightningOdds = 0 → s.cfg.dimThresh.toNat ≤ (ledAt s j).r.toNat →
        (∀ i < s.cfg.numLeds, ledAt t i = fade (ledAt s i) s.cfg.lfade) ∧
        t = { s₂ with lcnt := 0, frame := t.frame }) ∧
      ((drawValue s).toNat % s.cfg.lightningOdds = 0 → (ledAt s j).r.toNat < s.cfg.dimThresh.toNat →
        ledAt t j = fade (if (drawValue s₂).toNat % 2 = 0 then s.cfg.flashA else s.cfg.flashB) s.cfg.lfade ∧
        (∀ i < s.cfg.numLeds, i ≠ j → ledAt t i = fade (ledAt s i) s.cfg.lfade) ∧
        t = { s₃ with lcnt := 0, frame := t.frame })

/-- Chase's update: the index advances with wrap, the LED there is lit with the wheel at the phase before its advance, and then
every LED is faded, the one just lit included (R193, R195, R196). -/
def Obligations.ChaseUpdateLightsTheNextLedThenFades : Prop :=
  ∀ s : State, s.fault = 0 → s.mode = .chase → s.lcnt.toNat + 1 = divisor s.cfg.toParams s.mode →
    s.frame.length = s.cfg.numLeds →
    ∃ t, exec .ltick s = .next t ∧ t.frame.length = s.cfg.numLeds ∧
      t.cidx.toNat = (s.cidx.toNat + 1) % s.cfg.numLeds ∧
      ledAt t t.cidx.toNat = fade (wheel s.cphase) s.cfg.cfade ∧
      (∀ i < s.cfg.numLeds, i ≠ t.cidx.toNat → ledAt t i = fade (ledAt s i) s.cfg.cfade) ∧
      t = { s with lcnt := 0, cidx := t.cidx, cphase := s.cphase + s.cfg.cstep, frame := t.frame }

/-- Chase2's update: as Chase's, and the LED half the strip further is lit with the same colour; the phase advances once
(R194 to R196). -/
def Obligations.Chase2UpdateLightsTwoLedsThenFades : Prop :=
  ∀ s : State, s.fault = 0 → s.mode = .chase2 → s.lcnt.toNat + 1 = divisor s.cfg.toParams s.mode →
    s.frame.length = s.cfg.numLeds →
    ∃ t, exec .ltick s = .next t ∧ t.frame.length = s.cfg.numLeds ∧
      t.cidx.toNat = (s.cidx.toNat + 1) % s.cfg.numLeds ∧
      ledAt t t.cidx.toNat = fade (wheel s.cphase) s.cfg.cfade ∧
      ledAt t ((t.cidx.toNat + s.cfg.numLeds / 2) % s.cfg.numLeds) = fade (wheel s.cphase) s.cfg.cfade ∧
      (∀ i < s.cfg.numLeds, i ≠ t.cidx.toNat → i ≠ (t.cidx.toNat + s.cfg.numLeds / 2) % s.cfg.numLeds →
        ledAt t i = fade (ledAt s i) s.cfg.cfade) ∧
      t = { s with lcnt := 0, cidx := t.cidx, cphase := s.cphase + s.cfg.cstep, frame := t.frame }

/-- Chase2's two indices are in range, and distinct whenever there is more than one LED; with one LED both are 0 (R205). -/
def Obligations.Chase2IndicesAreDistinct : Prop :=
  ∀ (p : Config) (i : Nat), i < p.numLeds →
    oppositeIndex p.toParams i < p.numLeds ∧ (1 < p.numLeds → oppositeIndex p.toParams i ≠ i) ∧
    (p.numLeds = 1 → i = 0 ∧ oppositeIndex p.toParams i = 0)

/-- Counting `LTICK`s from a state with `LCNT` = 0, as every `LMODE` and reset leave it: after `n` of them exactly `n / K`
updates of the mode have run, one at each of the numbers K, 2K, 3K, ..., and nothing else has changed but `LCNT`, which is `n`
modulo K; so between two updates nothing but `LCNT` changes, in every mode. After `LMODE` this is spelled out: before the K-th
`LTICK` only `LCNT` has changed, and what an update of Rainbow, Chase and Chase2 advances has advanced once for every K
`LTICK`s (R190). -/
def Obligations.UpdatesRunAtEveryKthTick : Prop :=
  (∀ (s : State) (n : Nat), s.fault = 0 → s.lcnt = 0 →
    execAll (List.replicate n .ltick) s = .next { updateMode^[n / divisor s.cfg.toParams s.mode] s with
      lcnt := BitVec.ofNat 16 (n % divisor s.cfg.toParams s.mode) }) ∧
  (∀ c : Config, (State.resetWith c).fault = 0 ∧ (State.resetWith c).lcnt = 0) ∧
  (∀ (s : State) (m : Mode) (n : Nat), s.fault = 0 →
    ∃ u t, exec (.lmode m) s = .next u ∧ u.fault = 0 ∧ u.lcnt = 0 ∧
      execAll (List.replicate n .ltick) u = .next t ∧
      t.mode = m ∧ t.fault = 0 ∧ t.lcnt.toNat = n % divisor s.cfg.toParams m ∧
      (n < divisor s.cfg.toParams m → t = { u with lcnt := BitVec.ofNat 16 n }) ∧
      (m = .chase ∨ m = .chase2 → t.cidx.toNat = n / divisor s.cfg.toParams m % s.cfg.numLeds ∧
        t.cphase.toNat = n / divisor s.cfg.toParams m * s.cfg.cstep.toNat % 256) ∧
      (m = .rainbow → ∀ i < s.cfg.numLeds,
        (t.wpos.getD i 0).toNat = (256 * i / s.cfg.numLeds + n / divisor s.cfg.toParams m) % 256))

/-- Rate limiting whatever is issued in between (R190, R202): after any operations but `LMODE` from a state with `LCNT` = 0, no
fault raised, `LCNT` is the number of `LTICK`s among them modulo K, and the next `LTICK` runs the mode's update once if its
own number is a multiple of K, and otherwise only counts. -/
def Obligations.TickUpdatesExactlyAtMultiplesOfTheDivisor : Prop :=
  ∀ (s t : State) (is : List Instr) (k : Nat), s.lcnt = 0 → (∀ m, .lmode m ∉ is) → execAll is s = .next t → t.fault = 0 →
    k = divisor s.cfg.toParams s.mode →
    t.cfg = s.cfg ∧ t.mode = s.mode ∧ t.lcnt.toNat = is.count .ltick % k ∧
    ((is.count .ltick + 1) % k = 0 → exec .ltick t = .next (updateMode { t with lcnt := 0 })) ∧
    ((is.count .ltick + 1) % k ≠ 0 → exec .ltick t = .next { t with lcnt := t.lcnt + 1 })

/-- `LKEY` in Lightning: the first draw chooses the LED, the second the colour; it is shown at full value, whatever the LED
showed before; no other LED and nothing else changes (R198, R199). -/
def Obligations.LightningKeypressFlashesAtFullValue : Prop :=
  ∀ s : State, s.fault = 0 → s.mode = .lightning → s.frame.length = s.cfg.numLeds →
    ∀ s₁ : State, ∀ j : Nat, s₁ = afterDraw s → j = (drawValue s).toNat % s.cfg.numLeds →
    ∃ t, exec .lkey s = .next t ∧ t.frame.length = s.cfg.numLeds ∧
      ledAt t j = (if (drawValue s₁).toNat % 2 = 0 then s.cfg.kflashA else s.cfg.kflashB) ∧
      (∀ i < s.cfg.numLeds, i ≠ j → ledAt t i = ledAt s i) ∧
      t = { afterDraw s₁ with frame := t.frame }

/-- `LKEY` in Chase: the index advances with wrap, the LED there is lit with the wheel at the phase before its advance, with
no fade (R200). -/
def Obligations.ChaseKeypressLightsTheNextLed : Prop :=
  ∀ s : State, s.fault = 0 → s.mode = .chase → s.frame.length = s.cfg.numLeds →
    ∃ t, exec .lkey s = .next t ∧ t.frame.length = s.cfg.numLeds ∧
      t.cidx.toNat = (s.cidx.toNat + 1) % s.cfg.numLeds ∧
      ledAt t t.cidx.toNat = wheel s.cphase ∧
      (∀ i < s.cfg.numLeds, i ≠ t.cidx.toNat → ledAt t i = ledAt s i) ∧
      t = { s with cidx := t.cidx, cphase := s.cphase + s.cfg.cstep, frame := t.frame }

/-- In Rainbow and in Chase2 `LKEY` changes nothing and takes no draw, and the strobe of `EVPOP` leaves the LED animator as it
was (R201). -/
def Obligations.RainbowAndChase2IgnoreKeypresses : Prop :=
  ∀ s : State, s.fault = 0 → s.mode = .rainbow ∨ s.mode = .chase2 →
    exec .lkey s = .next s ∧ ∃ t, exec .evpop s = .next t ∧ ledSide t = ledSide s

/-- `LKEY` neither reads nor writes `LCNT` (R202). -/
def Obligations.KeypressNeverTouchesTheTickCounter : Prop :=
  ∀ (s t : State) (n : Half), exec .lkey s = .next t →
    t.lcnt = s.lcnt ∧ exec .lkey { s with lcnt := n } = .next { t with lcnt := n }

/-- Two `LKEY`s in Chase advance the index by exactly two positions, and each position is lit, not black, right after its
call; with more than one LED the first is still lit after the second (R206). -/
def Obligations.TwoChaseKeypressesAdvanceByTwo : Prop :=
  ∀ s : State, s.fault = 0 → s.mode = .chase → s.frame.length = s.cfg.numLeds →
    ∃ a b, exec .lkey s = .next a ∧ exec .lkey a = .next b ∧
      b.cidx.toNat = (s.cidx.toNat + 2) % s.cfg.numLeds ∧
      ledAt a ((s.cidx.toNat + 1) % s.cfg.numLeds) = wheel s.cphase ∧ wheel s.cphase ≠ ⟨0, 0, 0⟩ ∧
      ledAt b ((s.cidx.toNat + 2) % s.cfg.numLeds) = wheel (s.cphase + s.cfg.cstep) ∧
      wheel (s.cphase + s.cfg.cstep) ≠ ⟨0, 0, 0⟩ ∧
      (1 < s.cfg.numLeds → ledAt b ((s.cidx.toNat + 1) % s.cfg.numLeds) = wheel s.cphase)

/-- `LFRAME` emits the frame in LED order, each pixel as (green, red, blue), and changes nothing but the trace (R203). -/
def Obligations.FrameIsEmittedGreenRedBlue : Prop :=
  ∀ s : State, s.fault = 0 →
    exec .lframe s = .next { s with outLed := s.outLed ++ [s.frame.map fun t => ⟨t.g, t.r, t.b⟩] }

/-! ### The display animator (spec/43_display_animator.md) -/

/-- `DKEY` shows Tap2 after Tap1 and Tap1 after anything else, remembers the tick, and requests the draw (R240). -/
def Obligations.KeypressShowsTheNextTapSprite : Prop :=
  ∀ s : State, s.fault = 0 →
    ∀ sp : Sprite, sp = (if s.sprite = .tap1 then .tap2 else .tap1) →
    exec .dkey s = .next { s with sprite := sp, dlast := s.dcnt, outDraw := s.outDraw ++ [sp] }

/-- `DTICK` counts modulo 2^32; when the incremented counter minus `DLAST`, modulo 2^32, equals the timeout it shows and
requests Idle, and otherwise changes nothing else (R241, R242). -/
def Obligations.DisplayTickComparesTheIncrementedCounter : Prop :=
  ∀ (s : State) (n : Nat), s.fault = 0 → n = (s.dcnt.toNat + 1) % 2 ^ 32 →
    ((n + (2 ^ 32 - s.dlast.toNat)) % 2 ^ 32 = s.cfg.displayTimeout →
      exec .dtick s = .next { s with
        dcnt := BitVec.ofNat 32 n, sprite := .idle, outDraw := s.outDraw ++ [.idle] }) ∧
    ((n + (2 ^ 32 - s.dlast.toNat)) % 2 ^ 32 ≠ s.cfg.displayTimeout →
      exec .dtick s = .next { s with dcnt := BitVec.ofNat 32 n })

/-- After a keypress, by `DKEY` or by the strobe of an `EVPOP` that takes a Press, the display reverts to Idle at the
DISPLAY_TIMEOUT-th `DTICK` and at no earlier one, whatever other operations are issued in between (`SCAN`, `DEBOUNCE`, LED
operations, `EVPOP`s that take no Press) as long as no fault is raised, and wherever the counter wraps. The operations always
run through, and with `DTICK`s and LED operations alone no fault is raised and no event handed over (R245). -/
def Obligations.IdleReturnsExactlyAtTheTimeout : Prop :=
  ∀ (s u : State) (keypress : Instr) (is : List Instr), s.fault = 0 →
    (keypress = .dkey ∨ (keypress = .evpop ∧ ∃ e ∈ s.evq.head?, e.getLsbD 16 = true)) →
    exec keypress s = .next u → .dkey ∉ is → is.count .dtick ≤ s.cfg.displayTimeout →
    ∃ t, execAll is u = .next t ∧
      ((∀ i ∈ is, i = .dtick ∨ isLedOp i = true) → t.fault = 0 ∧ t.outEv = u.outEv) ∧
      (t.fault = 0 → (∀ e ∈ t.outEv.drop u.outEv.length, e.getLsbD 16 = false) →
        t.dlast = s.dcnt ∧ (t.dcnt - s.dcnt).toNat = is.count .dtick ∧
        (is.count .dtick < s.cfg.displayTimeout → t.sprite = u.sprite ∧ t.outDraw = u.outDraw) ∧
        (is.count .dtick = s.cfg.displayTimeout → t.sprite = .idle ∧ t.outDraw = u.outDraw ++ [.idle]))

/-- The invariant behind R246 (c): the sprite is not Idle only while the timeout is still to come. Every step keeps it, it
holds after reset, and under it a threshold comparator would show the same sprite at every `DTICK`. -/
def Obligations.ThresholdComparatorShowsTheSameSprite : Prop :=
  (∀ c : Config, SpriteAwaitsTimeout (State.resetWith c)) ∧
  (∀ s t : State, SpriteAwaitsTimeout s → step s = .next t → SpriteAwaitsTimeout t) ∧
  (∀ s t : State, SpriteAwaitsTimeout s → s.fault = 0 → exec .dtick s = .next t →
    t.sprite = if s.cfg.displayTimeout ≤ (s.dcnt + 1 - s.dlast).toNat then .idle else s.sprite)

/-! ### The whole block -/

/-- Every step keeps the invariant of the block: array shapes, counter ranges, `CNT` against `PREV_RAW` and `STABLE`, the
queue's order, inactive rows, settled ages, at most one fault bit, the EV port (R60, R158, R285). -/
def Obligations.StepKeepsTheInvariant : Prop :=
  ∀ s t : State, Inv s → step s = .next t → Inv t

/-- The invariant holds after reset, whatever the configuration (R60). -/
def Obligations.InvariantHoldsAfterReset : Prop :=
  (∀ c : Config, Inv (State.resetWith c)) ∧ Inv State.reset

/-- No step changes a parameter (R51). -/
def Obligations.ParametersNeverChange : Prop :=
  ∀ s t : State, step s = .next t → t.cfg = s.cfg

/-- Without a reset, a step only appends to the three output traces (R30, R80). -/
def Obligations.TracesOnlyGrow : Prop :=
  ∀ s t : State, NoResetNext s → step s = .next t →
    s.outEv <+: t.outEv ∧ s.outLed <+: t.outLed ∧ s.outDraw <+: t.outDraw

/-- Each operation writes only the state that R56's table marks w for it. -/
def Obligations.OperationsWriteOnlyTheirOwnState : Prop :=
  ∀ (i : Instr) (s t : State), exec i s = .next t →
    (i ≠ .scan → t.rowOut = s.rowOut ∧ t.resid = s.resid ∧ t.snap = s.snap ∧ t.scanScript = s.scanScript ∧
      t.freeScans = s.freeScans) ∧
    (i ≠ .debounce → t.stable = s.stable ∧ t.prevRaw = s.prevRaw ∧ t.cnt = s.cnt) ∧
    (i ≠ .debounce → i ≠ .evpop → t.evq = s.evq) ∧
    (i ≠ .evpop → t.evPort = s.evPort ∧ t.outEv = s.outEv) ∧
    (i ≠ .scan → i ≠ .debounce → t.fault = s.fault) ∧
    (i ≠ .evpop → isLedOp i = false → ledSide t = ledSide s) ∧
    (i = .evpop → t.wpos = s.wpos ∧ t.lcnt = s.lcnt ∧ t.mode = s.mode ∧ t.outLed = s.outLed) ∧
    (i = .ltick → t.mode = s.mode ∧ t.outLed = s.outLed) ∧
    (i = .lkey → t.wpos = s.wpos ∧ t.lcnt = s.lcnt ∧ t.mode = s.mode ∧ t.outLed = s.outLed) ∧
    (i = .lframe → ledSide t = { ledSide s with outLed := t.outLed }) ∧
    (∀ m, i = .lmode m → t.outLed = s.outLed ∧ t.drawScript = s.drawScript ∧ t.freeDraws = s.freeDraws) ∧
    (i ≠ .evpop → isDisplayOp i = false → displaySide t = displaySide s) ∧
    (i ≠ .dtick → t.dcnt = s.dcnt) ∧ (i = .dtick → t.dlast = s.dlast) ∧
    t.inputs = s.inputs ∧ t.cfg = s.cfg

/-- Data flows one way: what the scanner and the debouncer do never depends on the LED or the display state (R6). -/
def Obligations.KeySideNeverDependsOnTheAnimators : Prop :=
  ∀ (i : Instr) (s₁ s₂ t₁ t₂ : State), keySide s₁ = keySide s₂ → exec i s₁ = .next t₁ → exec i s₂ = .next t₂ →
    keySide t₁ = keySide t₂

/-- The animators do not see each other, the matrix or the queue: what any operation but `EVPOP` leaves on the LED side
depends on the LED side alone, and what it leaves on the display side on the display side alone. Of the queue `EVPOP` shows
them only whether its head is a Press (R6, R161). -/
def Obligations.AnimatorsSeeOnlyTheKeypressStrobe : Prop :=
  ∀ (i : Instr) (s₁ s₂ t₁ t₂ : State), s₁.fault = 0 → s₂.fault = 0 →
    (i = .evpop → (s₁.evq.head?.map fun e => e.getLsbD 16) = (s₂.evq.head?.map fun e => e.getLsbD 16)) →
    exec i s₁ = .next t₁ → exec i s₂ = .next t₂ →
    (ledSide s₁ = ledSide s₂ → ledSide t₁ = ledSide t₂) ∧
    (displaySide s₁ = displaySide s₂ → displaySide t₁ = displaySide t₂)

/-- An LED operation and a display operation can be issued in either order: the state afterwards is the same (R161, R265). -/
def Obligations.LedAndDisplayOperationsCommute : Prop :=
  ∀ (a b : Instr) (s : State), isLedOp a = true → isDisplayOp b = true →
    ∃ t, execAll [a, b] s = .next t ∧ execAll [b, a] s = .next t

/-- A tick of R260, with or without a mode switch, always completes in a good running state whose queue is drained when the
pins of its scan work: no fault, the queue empty again, one frame pushed which shows the frame at the end, `DCNT` one
higher (R260, R266, R269). -/
def Obligations.TickCompletesForADutifulHost : Prop :=
  ∀ (s : State) (m : Option Mode), Inv s → s.fault = 0 → s.evq = [] → PinsWork s →
    ∃ t, execAll (tick s.cfg.toParams m) s = .next t ∧ Inv t ∧ t.fault = 0 ∧ t.evq = [] ∧
      t.outLed = s.outLed ++ [t.frame.map fun x => ⟨x.g, x.r, x.b⟩] ∧ t.dcnt = s.dcnt + 1 ∧
      t.mode = m.getD s.mode

/-- A tick whose custom action is a firmware reset ends in the reset state, whatever happened in it (R264, R320). -/
def Obligations.FirmwareResetTickEndsInTheResetState : Prop :=
  ∀ (s : State) (rest : List HostInput), s.inputs = tickInputs s.cfg.toParams (some .firmwareReset) ++ rest →
    ∃ t, Host.Core.run Sys2Proof.core (tickInputs s.cfg.toParams (some .firmwareReset)).length s = .next t ∧
      t = { State.resetWith s.cfg with
        inputs := rest, scanScript := t.scanScript, drawScript := t.drawScript
        freeScans := t.freeScans, freeDraws := t.freeDraws }
end

