-- ==== Sys2Proof/Laws/Grid.lean ====
section
/-! SUPPORT. Key-space arrays and event words: reading what was built, shapes, the row-major order. -/

namespace Sys2Proof.Machine

/-- Reading inside the array gives the element it was built with. -/
theorem gridAt_gridOf {α : Type} [Inhabited α] (p : Params) (f : Nat → Nat → α) {r c : Nat} (hr : r < p.rows)
    (hc : c < p.cols) : gridAt (gridOf p f) r c = f r c := by
  simp [gridAt, gridOf, List.getD, hr, hc]

/-- An array built key by key has its shape. -/
theorem gridOf_shape {α : Type} (p : Params) (f : Nat → Nat → α) : GridShape p (gridOf p f) := by
  simp [GridShape, gridOf]

/-- The array reset writes has its shape. -/
theorem replicate_shape {α : Type} (p : Params) (x : α) :
    GridShape p (List.replicate p.rows (List.replicate p.cols x)) := by
  constructor
  · simp
  · intro row h
    rw [List.eq_of_mem_replicate h]
    simp

/-- Reading the array reset writes. -/
theorem gridAt_replicate {α : Type} [Inhabited α] (p : Params) (x : α) {r c : Nat} (hr : r < p.rows)
    (hc : c < p.cols) : gridAt (List.replicate p.rows (List.replicate p.cols x)) r c = x := by
  simp [gridAt, List.getD, hr, hc]

/-- The keys visited are the keys of the matrix. -/
theorem mem_keysInOrder (p : Params) (k : Nat × Nat) : k ∈ keysInOrder p ↔ k.1 < p.rows ∧ k.2 < p.cols := by
  obtain ⟨r, c⟩ := k
  simp [keysInOrder, List.mem_flatMap]

/-- The keys are visited in row-major order (R72 (a)). -/
theorem keysInOrder_pairwise (p : Params) :
    (keysInOrder p).Pairwise fun a b => a.1 < b.1 ∨ (a.1 = b.1 ∧ a.2 < b.2) := by
  unfold keysInOrder
  rw [List.pairwise_flatMap]
  constructor
  · intro r _
    rw [List.pairwise_map]
    exact List.pairwise_lt_range.imp fun h => .inr ⟨rfl, h⟩
  · refine List.pairwise_lt_range.imp ?_
    intro a b h x hx y hy
    simp only [List.mem_map, List.mem_range] at hx hy
    obtain ⟨_, _, rfl⟩ := hx
    obtain ⟨_, _, rfl⟩ := hy
    exact .inl h

/-- There are ROWS x COLS keys. -/
theorem keysInOrder_length (p : Params) : (keysInOrder p).length = p.rows * p.cols := by
  simp [keysInOrder, List.length_flatMap]

/-- An event word is its valid bit, its kind bit, its row byte and its column byte (R108). -/
theorem eventWord_toNat (press : Bool) {r c : Nat} (hr : r < 256) (hc : c < 256) :
    (eventWord press r c).toNat = 131072 + 65536 * press.toNat + 256 * r + c := by
  have hb : (BitVec.ofBool press).toNat < 2 := by cases press <;> decide
  unfold eventWord
  simp only [BitVec.toNat_append, BitVec.toNat_ofNat, Nat.mod_eq_of_lt hr, Nat.mod_eq_of_lt hc]
  rw [← Nat.shiftLeft_add_eq_or_of_lt (i := 8) hc, ← Nat.shiftLeft_add_eq_or_of_lt (i := 8) hr,
    ← Nat.shiftLeft_add_eq_or_of_lt (i := 1) hb]
  simp only [Nat.shiftLeft_eq]
  cases press <;> simp <;> omega

/-- The row of an event word (R108). -/
theorem eventRow_eventWord (press : Bool) {r c : Nat} (hr : r < 256) (hc : c < 256) :
    eventRow (eventWord press r c) = r := by
  simp only [eventRow, BitVec.extractLsb'_toNat, eventWord_toNat press hr hc]
  cases press <;> simp [Nat.shiftRight_eq_div_pow] <;> omega

/-- The column of an event word (R108). -/
theorem eventCol_eventWord (press : Bool) {r c : Nat} (hr : r < 256) (hc : c < 256) :
    eventCol (eventWord press r c) = c := by
  simp only [eventCol, BitVec.extractLsb'_toNat, eventWord_toNat press hr hc]
  cases press <;> simp <;> omega

/-- The kind of an event word (R108). -/
theorem eventIsPress_eventWord (press : Bool) (r c : Nat) : eventIsPress (eventWord press r c) = press := by
  simp only [eventIsPress, eventWord, BitVec.getLsbD_append]
  cases press <;> rfl

/-- An event word is valid (R108). -/
theorem eventValid_eventWord (press : Bool) (r c : Nat) : eventValid (eventWord press r c) = true := by
  simp only [eventValid, eventWord, BitVec.getLsbD_append]
  rfl

end Sys2Proof.Machine
end

