-- ==== Sys2Proof/Laws/State.lean ====
section
/-! SUPPORT. One lemma per field per named update of the state (Machine/Ops.lean), each true by unfolding, so that no later
proof unfolds an update. -/

namespace Sys2Proof.Machine

variable (s : State)

/-! ### `raiseFault` -/

@[simp] theorem raiseFault_rowOut (k : Nat) : (raiseFault k s).rowOut = s.rowOut := rfl
@[simp] theorem raiseFault_resid (k : Nat) : (raiseFault k s).resid = s.resid := rfl
@[simp] theorem raiseFault_snap (k : Nat) : (raiseFault k s).snap = s.snap := rfl
@[simp] theorem raiseFault_stable (k : Nat) : (raiseFault k s).stable = s.stable := rfl
@[simp] theorem raiseFault_prevRaw (k : Nat) : (raiseFault k s).prevRaw = s.prevRaw := rfl
@[simp] theorem raiseFault_cnt (k : Nat) : (raiseFault k s).cnt = s.cnt := rfl
@[simp] theorem raiseFault_evq (k : Nat) : (raiseFault k s).evq = s.evq := rfl
@[simp] theorem raiseFault_frame (k : Nat) : (raiseFault k s).frame = s.frame := rfl
@[simp] theorem raiseFault_wpos (k : Nat) : (raiseFault k s).wpos = s.wpos := rfl
@[simp] theorem raiseFault_lcnt (k : Nat) : (raiseFault k s).lcnt = s.lcnt := rfl
@[simp] theorem raiseFault_cidx (k : Nat) : (raiseFault k s).cidx = s.cidx := rfl
@[simp] theorem raiseFault_cphase (k : Nat) : (raiseFault k s).cphase = s.cphase := rfl
@[simp] theorem raiseFault_mode (k : Nat) : (raiseFault k s).mode = s.mode := rfl
@[simp] theorem raiseFault_sprite (k : Nat) : (raiseFault k s).sprite = s.sprite := rfl
@[simp] theorem raiseFault_dcnt (k : Nat) : (raiseFault k s).dcnt = s.dcnt := rfl
@[simp] theorem raiseFault_dlast (k : Nat) : (raiseFault k s).dlast = s.dlast := rfl
@[simp] theorem raiseFault_fault (k : Nat) : (raiseFault k s).fault = s.fault ||| faultBit k := rfl
@[simp] theorem raiseFault_evPort (k : Nat) : (raiseFault k s).evPort = s.evPort := rfl
@[simp] theorem raiseFault_outEv (k : Nat) : (raiseFault k s).outEv = s.outEv := rfl
@[simp] theorem raiseFault_outLed (k : Nat) : (raiseFault k s).outLed = s.outLed := rfl
@[simp] theorem raiseFault_outDraw (k : Nat) : (raiseFault k s).outDraw = s.outDraw := rfl
@[simp] theorem raiseFault_cfg (k : Nat) : (raiseFault k s).cfg = s.cfg := rfl
@[simp] theorem raiseFault_inputs (k : Nat) : (raiseFault k s).inputs = s.inputs := rfl
@[simp] theorem raiseFault_scanScript (k : Nat) : (raiseFault k s).scanScript = s.scanScript := rfl
@[simp] theorem raiseFault_drawScript (k : Nat) : (raiseFault k s).drawScript = s.drawScript := rfl
@[simp] theorem raiseFault_freeScans (k : Nat) : (raiseFault k s).freeScans = s.freeScans := rfl
@[simp] theorem raiseFault_freeDraws (k : Nat) : (raiseFault k s).freeDraws = s.freeDraws := rfl

/-! ### `rowDrive` -/

@[simp] theorem rowDrive_rowOut (r : Nat) (l : RowLevel) : (rowDrive r l s).rowOut = s.rowOut.set r l := rfl
@[simp] theorem rowDrive_resid (r : Nat) (l : RowLevel) :
    (rowDrive r l s).resid = if l = .inactive then s.resid.set r (residualOf s.cfg.toParams 0) else s.resid := rfl
@[simp] theorem rowDrive_snap (r : Nat) (l : RowLevel) : (rowDrive r l s).snap = s.snap := rfl
@[simp] theorem rowDrive_stable (r : Nat) (l : RowLevel) : (rowDrive r l s).stable = s.stable := rfl
@[simp] theorem rowDrive_prevRaw (r : Nat) (l : RowLevel) : (rowDrive r l s).prevRaw = s.prevRaw := rfl
@[simp] theorem rowDrive_cnt (r : Nat) (l : RowLevel) : (rowDrive r l s).cnt = s.cnt := rfl
@[simp] theorem rowDrive_evq (r : Nat) (l : RowLevel) : (rowDrive r l s).evq = s.evq := rfl
@[simp] theorem rowDrive_frame (r : Nat) (l : RowLevel) : (rowDrive r l s).frame = s.frame := rfl
@[simp] theorem rowDrive_wpos (r : Nat) (l : RowLevel) : (rowDrive r l s).wpos = s.wpos := rfl
@[simp] theorem rowDrive_lcnt (r : Nat) (l : RowLevel) : (rowDrive r l s).lcnt = s.lcnt := rfl
@[simp] theorem rowDrive_cidx (r : Nat) (l : RowLevel) : (rowDrive r l s).cidx = s.cidx := rfl
@[simp] theorem rowDrive_cphase (r : Nat) (l : RowLevel) : (rowDrive r l s).cphase = s.cphase := rfl
@[simp] theorem rowDrive_mode (r : Nat) (l : RowLevel) : (rowDrive r l s).mode = s.mode := rfl
@[simp] theorem rowDrive_sprite (r : Nat) (l : RowLevel) : (rowDrive r l s).sprite = s.sprite := rfl
@[simp] theorem rowDrive_dcnt (r : Nat) (l : RowLevel) : (rowDrive r l s).dcnt = s.dcnt := rfl
@[simp] theorem rowDrive_dlast (r : Nat) (l : RowLevel) : (rowDrive r l s).dlast = s.dlast := rfl
@[simp] theorem rowDrive_fault (r : Nat) (l : RowLevel) : (rowDrive r l s).fault = s.fault := rfl
@[simp] theorem rowDrive_evPort (r : Nat) (l : RowLevel) : (rowDrive r l s).evPort = s.evPort := rfl
@[simp] theorem rowDrive_outEv (r : Nat) (l : RowLevel) : (rowDrive r l s).outEv = s.outEv := rfl
@[simp] theorem rowDrive_outLed (r : Nat) (l : RowLevel) : (rowDrive r l s).outLed = s.outLed := rfl
@[simp] theorem rowDrive_outDraw (r : Nat) (l : RowLevel) : (rowDrive r l s).outDraw = s.outDraw := rfl
@[simp] theorem rowDrive_cfg (r : Nat) (l : RowLevel) : (rowDrive r l s).cfg = s.cfg := rfl
@[simp] theorem rowDrive_inputs (r : Nat) (l : RowLevel) : (rowDrive r l s).inputs = s.inputs := rfl
@[simp] theorem rowDrive_scanScript (r : Nat) (l : RowLevel) : (rowDrive r l s).scanScript = s.scanScript := rfl
@[simp] theorem rowDrive_drawScript (r : Nat) (l : RowLevel) : (rowDrive r l s).drawScript = s.drawScript := rfl
@[simp] theorem rowDrive_freeScans (r : Nat) (l : RowLevel) : (rowDrive r l s).freeScans = s.freeScans := rfl
@[simp] theorem rowDrive_freeDraws (r : Nat) (l : RowLevel) : (rowDrive r l s).freeDraws = s.freeDraws := rfl

/-! ### `delayUs` -/

@[simp] theorem delayUs_rowOut (us : Nat) : (delayUs us s).rowOut = s.rowOut := rfl
@[simp] theorem delayUs_resid (us : Nat) : (delayUs us s).resid = s.resid.map (residualAfter s.cfg.toParams us) := rfl
@[simp] theorem delayUs_snap (us : Nat) : (delayUs us s).snap = s.snap := rfl
@[simp] theorem delayUs_stable (us : Nat) : (delayUs us s).stable = s.stable := rfl
@[simp] theorem delayUs_prevRaw (us : Nat) : (delayUs us s).prevRaw = s.prevRaw := rfl
@[simp] theorem delayUs_cnt (us : Nat) : (delayUs us s).cnt = s.cnt := rfl
@[simp] theorem delayUs_evq (us : Nat) : (delayUs us s).evq = s.evq := rfl
@[simp] theorem delayUs_frame (us : Nat) : (delayUs us s).frame = s.frame := rfl
@[simp] theorem delayUs_wpos (us : Nat) : (delayUs us s).wpos = s.wpos := rfl
@[simp] theorem delayUs_lcnt (us : Nat) : (delayUs us s).lcnt = s.lcnt := rfl
@[simp] theorem delayUs_cidx (us : Nat) : (delayUs us s).cidx = s.cidx := rfl
@[simp] theorem delayUs_cphase (us : Nat) : (delayUs us s).cphase = s.cphase := rfl
@[simp] theorem delayUs_mode (us : Nat) : (delayUs us s).mode = s.mode := rfl
@[simp] theorem delayUs_sprite (us : Nat) : (delayUs us s).sprite = s.sprite := rfl
@[simp] theorem delayUs_dcnt (us : Nat) : (delayUs us s).dcnt = s.dcnt := rfl
@[simp] theorem delayUs_dlast (us : Nat) : (delayUs us s).dlast = s.dlast := rfl
@[simp] theorem delayUs_fault (us : Nat) : (delayUs us s).fault = s.fault := rfl
@[simp] theorem delayUs_evPort (us : Nat) : (delayUs us s).evPort = s.evPort := rfl
@[simp] theorem delayUs_outEv (us : Nat) : (delayUs us s).outEv = s.outEv := rfl
@[simp] theorem delayUs_outLed (us : Nat) : (delayUs us s).outLed = s.outLed := rfl
@[simp] theorem delayUs_outDraw (us : Nat) : (delayUs us s).outDraw = s.outDraw := rfl
@[simp] theorem delayUs_cfg (us : Nat) : (delayUs us s).cfg = s.cfg := rfl
@[simp] theorem delayUs_inputs (us : Nat) : (delayUs us s).inputs = s.inputs := rfl
@[simp] theorem delayUs_scanScript (us : Nat) : (delayUs us s).scanScript = s.scanScript := rfl
@[simp] theorem delayUs_drawScript (us : Nat) : (delayUs us s).drawScript = s.drawScript := rfl
@[simp] theorem delayUs_freeScans (us : Nat) : (delayUs us s).freeScans = s.freeScans := rfl
@[simp] theorem delayUs_freeDraws (us : Nat) : (delayUs us s).freeDraws = s.freeDraws := rfl

/-! ### `afterScanAnswer` -/

@[simp] theorem afterScanAnswer_rowOut : (afterScanAnswer s).rowOut = s.rowOut := rfl
@[simp] theorem afterScanAnswer_resid : (afterScanAnswer s).resid = s.resid := rfl
@[simp] theorem afterScanAnswer_snap : (afterScanAnswer s).snap = s.snap := rfl
@[simp] theorem afterScanAnswer_stable : (afterScanAnswer s).stable = s.stable := rfl
@[simp] theorem afterScanAnswer_prevRaw : (afterScanAnswer s).prevRaw = s.prevRaw := rfl
@[simp] theorem afterScanAnswer_cnt : (afterScanAnswer s).cnt = s.cnt := rfl
@[simp] theorem afterScanAnswer_evq : (afterScanAnswer s).evq = s.evq := rfl
@[simp] theorem afterScanAnswer_frame : (afterScanAnswer s).frame = s.frame := rfl
@[simp] theorem afterScanAnswer_wpos : (afterScanAnswer s).wpos = s.wpos := rfl
@[simp] theorem afterScanAnswer_lcnt : (afterScanAnswer s).lcnt = s.lcnt := rfl
@[simp] theorem afterScanAnswer_cidx : (afterScanAnswer s).cidx = s.cidx := rfl
@[simp] theorem afterScanAnswer_cphase : (afterScanAnswer s).cphase = s.cphase := rfl
@[simp] theorem afterScanAnswer_mode : (afterScanAnswer s).mode = s.mode := rfl
@[simp] theorem afterScanAnswer_sprite : (afterScanAnswer s).sprite = s.sprite := rfl
@[simp] theorem afterScanAnswer_dcnt : (afterScanAnswer s).dcnt = s.dcnt := rfl
@[simp] theorem afterScanAnswer_dlast : (afterScanAnswer s).dlast = s.dlast := rfl
@[simp] theorem afterScanAnswer_fault : (afterScanAnswer s).fault = s.fault := rfl
@[simp] theorem afterScanAnswer_evPort : (afterScanAnswer s).evPort = s.evPort := rfl
@[simp] theorem afterScanAnswer_outEv : (afterScanAnswer s).outEv = s.outEv := rfl
@[simp] theorem afterScanAnswer_outLed : (afterScanAnswer s).outLed = s.outLed := rfl
@[simp] theorem afterScanAnswer_outDraw : (afterScanAnswer s).outDraw = s.outDraw := rfl
@[simp] theorem afterScanAnswer_cfg : (afterScanAnswer s).cfg = s.cfg := rfl
@[simp] theorem afterScanAnswer_inputs : (afterScanAnswer s).inputs = s.inputs := rfl
@[simp] theorem afterScanAnswer_scanScript : (afterScanAnswer s).scanScript = s.scanScript.tail := rfl
@[simp] theorem afterScanAnswer_drawScript : (afterScanAnswer s).drawScript = s.drawScript := rfl
@[simp] theorem afterScanAnswer_freeScans :
    (afterScanAnswer s).freeScans = if s.scanScript.isEmpty then s.freeScans + 1 else s.freeScans := rfl
@[simp] theorem afterScanAnswer_freeDraws : (afterScanAnswer s).freeDraws = s.freeDraws := rfl

/-! ### `afterDraw` -/

@[simp] theorem afterDraw_rowOut : (afterDraw s).rowOut = s.rowOut := rfl
@[simp] theorem afterDraw_resid : (afterDraw s).resid = s.resid := rfl
@[simp] theorem afterDraw_snap : (afterDraw s).snap = s.snap := rfl
@[simp] theorem afterDraw_stable : (afterDraw s).stable = s.stable := rfl
@[simp] theorem afterDraw_prevRaw : (afterDraw s).prevRaw = s.prevRaw := rfl
@[simp] theorem afterDraw_cnt : (afterDraw s).cnt = s.cnt := rfl
@[simp] theorem afterDraw_evq : (afterDraw s).evq = s.evq := rfl
@[simp] theorem afterDraw_frame : (afterDraw s).frame = s.frame := rfl
@[simp] theorem afterDraw_wpos : (afterDraw s).wpos = s.wpos := rfl
@[simp] theorem afterDraw_lcnt : (afterDraw s).lcnt = s.lcnt := rfl
@[simp] theorem afterDraw_cidx : (afterDraw s).cidx = s.cidx := rfl
@[simp] theorem afterDraw_cphase : (afterDraw s).cphase = s.cphase := rfl
@[simp] theorem afterDraw_mode : (afterDraw s).mode = s.mode := rfl
@[simp] theorem afterDraw_sprite : (afterDraw s).sprite = s.sprite := rfl
@[simp] theorem afterDraw_dcnt : (afterDraw s).dcnt = s.dcnt := rfl
@[simp] theorem afterDraw_dlast : (afterDraw s).dlast = s.dlast := rfl
@[simp] theorem afterDraw_fault : (afterDraw s).fault = s.fault := rfl
@[simp] theorem afterDraw_evPort : (afterDraw s).evPort = s.evPort := rfl
@[simp] theorem afterDraw_outEv : (afterDraw s).outEv = s.outEv := rfl
@[simp] theorem afterDraw_outLed : (afterDraw s).outLed = s.outLed := rfl
@[simp] theorem afterDraw_outDraw : (afterDraw s).outDraw = s.outDraw := rfl
@[simp] theorem afterDraw_cfg : (afterDraw s).cfg = s.cfg := rfl
@[simp] theorem afterDraw_inputs : (afterDraw s).inputs = s.inputs := rfl
@[simp] theorem afterDraw_scanScript : (afterDraw s).scanScript = s.scanScript := rfl
@[simp] theorem afterDraw_drawScript : (afterDraw s).drawScript = s.drawScript.tail := rfl
@[simp] theorem afterDraw_freeScans : (afterDraw s).freeScans = s.freeScans := rfl
@[simp] theorem afterDraw_freeDraws :
    (afterDraw s).freeDraws = if s.drawScript.isEmpty then s.freeDraws + 1 else s.freeDraws := rfl

/-! ### `emitEv` -/

@[simp] theorem emitEv_rowOut (w : EventWord) : (emitEv w s).rowOut = s.rowOut := rfl
@[simp] theorem emitEv_resid (w : EventWord) : (emitEv w s).resid = s.resid := rfl
@[simp] theorem emitEv_snap (w : EventWord) : (emitEv w s).snap = s.snap := rfl
@[simp] theorem emitEv_stable (w : EventWord) : (emitEv w s).stable = s.stable := rfl
@[simp] theorem emitEv_prevRaw (w : EventWord) : (emitEv w s).prevRaw = s.prevRaw := rfl
@[simp] theorem emitEv_cnt (w : EventWord) : (emitEv w s).cnt = s.cnt := rfl
@[simp] theorem emitEv_evq (w : EventWord) : (emitEv w s).evq = s.evq := rfl
@[simp] theorem emitEv_frame (w : EventWord) : (emitEv w s).frame = s.frame := rfl
@[simp] theorem emitEv_wpos (w : EventWord) : (emitEv w s).wpos = s.wpos := rfl
@[simp] theorem emitEv_lcnt (w : EventWord) : (emitEv w s).lcnt = s.lcnt := rfl
@[simp] theorem emitEv_cidx (w : EventWord) : (emitEv w s).cidx = s.cidx := rfl
@[simp] theorem emitEv_cphase (w : EventWord) : (emitEv w s).cphase = s.cphase := rfl
@[simp] theorem emitEv_mode (w : EventWord) : (emitEv w s).mode = s.mode := rfl
@[simp] theorem emitEv_sprite (w : EventWord) : (emitEv w s).sprite = s.sprite := rfl
@[simp] theorem emitEv_dcnt (w : EventWord) : (emitEv w s).dcnt = s.dcnt := rfl
@[simp] theorem emitEv_dlast (w : EventWord) : (emitEv w s).dlast = s.dlast := rfl
@[simp] theorem emitEv_fault (w : EventWord) : (emitEv w s).fault = s.fault := rfl
@[simp] theorem emitEv_evPort (w : EventWord) : (emitEv w s).evPort = w := rfl
@[simp] theorem emitEv_outEv (w : EventWord) : (emitEv w s).outEv = s.outEv ++ [w] := rfl
@[simp] theorem emitEv_outLed (w : EventWord) : (emitEv w s).outLed = s.outLed := rfl
@[simp] theorem emitEv_outDraw (w : EventWord) : (emitEv w s).outDraw = s.outDraw := rfl
@[simp] theorem emitEv_cfg (w : EventWord) : (emitEv w s).cfg = s.cfg := rfl
@[simp] theorem emitEv_inputs (w : EventWord) : (emitEv w s).inputs = s.inputs := rfl
@[simp] theorem emitEv_scanScript (w : EventWord) : (emitEv w s).scanScript = s.scanScript := rfl
@[simp] theorem emitEv_drawScript (w : EventWord) : (emitEv w s).drawScript = s.drawScript := rfl
@[simp] theorem emitEv_freeScans (w : EventWord) : (emitEv w s).freeScans = s.freeScans := rfl
@[simp] theorem emitEv_freeDraws (w : EventWord) : (emitEv w s).freeDraws = s.freeDraws := rfl

/-! ### `emitFrame` -/

@[simp] theorem emitFrame_rowOut (f : List OutTriple) : (emitFrame f s).rowOut = s.rowOut := rfl
@[simp] theorem emitFrame_resid (f : List OutTriple) : (emitFrame f s).resid = s.resid := rfl
@[simp] theorem emitFrame_snap (f : List OutTriple) : (emitFrame f s).snap = s.snap := rfl
@[simp] theorem emitFrame_stable (f : List OutTriple) : (emitFrame f s).stable = s.stable := rfl
@[simp] theorem emitFrame_prevRaw (f : List OutTriple) : (emitFrame f s).prevRaw = s.prevRaw := rfl
@[simp] theorem emitFrame_cnt (f : List OutTriple) : (emitFrame f s).cnt = s.cnt := rfl
@[simp] theorem emitFrame_evq (f : List OutTriple) : (emitFrame f s).evq = s.evq := rfl
@[simp] theorem emitFrame_frame (f : List OutTriple) : (emitFrame f s).frame = s.frame := rfl
@[simp] theorem emitFrame_wpos (f : List OutTriple) : (emitFrame f s).wpos = s.wpos := rfl
@[simp] theorem emitFrame_lcnt (f : List OutTriple) : (emitFrame f s).lcnt = s.lcnt := rfl
@[simp] theorem emitFrame_cidx (f : List OutTriple) : (emitFrame f s).cidx = s.cidx := rfl
@[simp] theorem emitFrame_cphase (f : List OutTriple) : (emitFrame f s).cphase = s.cphase := rfl
@[simp] theorem emitFrame_mode (f : List OutTriple) : (emitFrame f s).mode = s.mode := rfl
@[simp] theorem emitFrame_sprite (f : List OutTriple) : (emitFrame f s).sprite = s.sprite := rfl
@[simp] theorem emitFrame_dcnt (f : List OutTriple) : (emitFrame f s).dcnt = s.dcnt := rfl
@[simp] theorem emitFrame_dlast (f : List OutTriple) : (emitFrame f s).dlast = s.dlast := rfl
@[simp] theorem emitFrame_fault (f : List OutTriple) : (emitFrame f s).fault = s.fault := rfl
@[simp] theorem emitFrame_evPort (f : List OutTriple) : (emitFrame f s).evPort = s.evPort := rfl
@[simp] theorem emitFrame_outEv (f : List OutTriple) : (emitFrame f s).outEv = s.outEv := rfl
@[simp] theorem emitFrame_outLed (f : List OutTriple) : (emitFrame f s).outLed = s.outLed ++ [f] := rfl
@[simp] theorem emitFrame_outDraw (f : List OutTriple) : (emitFrame f s).outDraw = s.outDraw := rfl
@[simp] theorem emitFrame_cfg (f : List OutTriple) : (emitFrame f s).cfg = s.cfg := rfl
@[simp] theorem emitFrame_inputs (f : List OutTriple) : (emitFrame f s).inputs = s.inputs := rfl
@[simp] theorem emitFrame_scanScript (f : List OutTriple) : (emitFrame f s).scanScript = s.scanScript := rfl
@[simp] theorem emitFrame_drawScript (f : List OutTriple) : (emitFrame f s).drawScript = s.drawScript := rfl
@[simp] theorem emitFrame_freeScans (f : List OutTriple) : (emitFrame f s).freeScans = s.freeScans := rfl
@[simp] theorem emitFrame_freeDraws (f : List OutTriple) : (emitFrame f s).freeDraws = s.freeDraws := rfl

/-! ### `showSprite` -/

@[simp] theorem showSprite_rowOut (sp : Sprite) : (showSprite sp s).rowOut = s.rowOut := rfl
@[simp] theorem showSprite_resid (sp : Sprite) : (showSprite sp s).resid = s.resid := rfl
@[simp] theorem showSprite_snap (sp : Sprite) : (showSprite sp s).snap = s.snap := rfl
@[simp] theorem showSprite_stable (sp : Sprite) : (showSprite sp s).stable = s.stable := rfl
@[simp] theorem showSprite_prevRaw (sp : Sprite) : (showSprite sp s).prevRaw = s.prevRaw := rfl
@[simp] theorem showSprite_cnt (sp : Sprite) : (showSprite sp s).cnt = s.cnt := rfl
@[simp] theorem showSprite_evq (sp : Sprite) : (showSprite sp s).evq = s.evq := rfl
@[simp] theorem showSprite_frame (sp : Sprite) : (showSprite sp s).frame = s.frame := rfl
@[simp] theorem showSprite_wpos (sp : Sprite) : (showSprite sp s).wpos = s.wpos := rfl
@[simp] theorem showSprite_lcnt (sp : Sprite) : (showSprite sp s).lcnt = s.lcnt := rfl
@[simp] theorem showSprite_cidx (sp : Sprite) : (showSprite sp s).cidx = s.cidx := rfl
@[simp] theorem showSprite_cphase (sp : Sprite) : (showSprite sp s).cphase = s.cphase := rfl
@[simp] theorem showSprite_mode (sp : Sprite) : (showSprite sp s).mode = s.mode := rfl
@[simp] theorem showSprite_sprite (sp : Sprite) : (showSprite sp s).sprite = sp := rfl
@[simp] theorem showSprite_dcnt (sp : Sprite) : (showSprite sp s).dcnt = s.dcnt := rfl
@[simp] theorem showSprite_dlast (sp : Sprite) : (showSprite sp s).dlast = s.dlast := rfl
@[simp] theorem showSprite_fault (sp : Sprite) : (showSprite sp s).fault = s.fault := rfl
@[simp] theorem showSprite_evPort (sp : Sprite) : (showSprite sp s).evPort = s.evPort := rfl
@[simp] theorem showSprite_outEv (sp : Sprite) : (showSprite sp s).outEv = s.outEv := rfl
@[simp] theorem showSprite_outLed (sp : Sprite) : (showSprite sp s).outLed = s.outLed := rfl
@[simp] theorem showSprite_outDraw (sp : Sprite) : (showSprite sp s).outDraw = s.outDraw ++ [sp] := rfl
@[simp] theorem showSprite_cfg (sp : Sprite) : (showSprite sp s).cfg = s.cfg := rfl
@[simp] theorem showSprite_inputs (sp : Sprite) : (showSprite sp s).inputs = s.inputs := rfl
@[simp] theorem showSprite_scanScript (sp : Sprite) : (showSprite sp s).scanScript = s.scanScript := rfl
@[simp] theorem showSprite_drawScript (sp : Sprite) : (showSprite sp s).drawScript = s.drawScript := rfl
@[simp] theorem showSprite_freeScans (sp : Sprite) : (showSprite sp s).freeScans = s.freeScans := rfl
@[simp] theorem showSprite_freeDraws (sp : Sprite) : (showSprite sp s).freeDraws = s.freeDraws := rfl

/-! ### `writeLed` -/

@[simp] theorem writeLed_rowOut (i : Nat) (t : Rgb) : (writeLed i t s).rowOut = s.rowOut := rfl
@[simp] theorem writeLed_resid (i : Nat) (t : Rgb) : (writeLed i t s).resid = s.resid := rfl
@[simp] theorem writeLed_snap (i : Nat) (t : Rgb) : (writeLed i t s).snap = s.snap := rfl
@[simp] theorem writeLed_stable (i : Nat) (t : Rgb) : (writeLed i t s).stable = s.stable := rfl
@[simp] theorem writeLed_prevRaw (i : Nat) (t : Rgb) : (writeLed i t s).prevRaw = s.prevRaw := rfl
@[simp] theorem writeLed_cnt (i : Nat) (t : Rgb) : (writeLed i t s).cnt = s.cnt := rfl
@[simp] theorem writeLed_evq (i : Nat) (t : Rgb) : (writeLed i t s).evq = s.evq := rfl
@[simp] theorem writeLed_frame (i : Nat) (t : Rgb) : (writeLed i t s).frame = s.frame.set i t := rfl
@[simp] theorem writeLed_wpos (i : Nat) (t : Rgb) : (writeLed i t s).wpos = s.wpos := rfl
@[simp] theorem writeLed_lcnt (i : Nat) (t : Rgb) : (writeLed i t s).lcnt = s.lcnt := rfl
@[simp] theorem writeLed_cidx (i : Nat) (t : Rgb) : (writeLed i t s).cidx = s.cidx := rfl
@[simp] theorem writeLed_cphase (i : Nat) (t : Rgb) : (writeLed i t s).cphase = s.cphase := rfl
@[simp] theorem writeLed_mode (i : Nat) (t : Rgb) : (writeLed i t s).mode = s.mode := rfl
@[simp] theorem writeLed_sprite (i : Nat) (t : Rgb) : (writeLed i t s).sprite = s.sprite := rfl
@[simp] theorem writeLed_dcnt (i : Nat) (t : Rgb) : (writeLed i t s).dcnt = s.dcnt := rfl
@[simp] theorem writeLed_dlast (i : Nat) (t : Rgb) : (writeLed i t s).dlast = s.dlast := rfl
@[simp] theorem writeLed_fault (i : Nat) (t : Rgb) : (writeLed i t s).fault = s.fault := rfl
@[simp] theorem writeLed_evPort (i : Nat) (t : Rgb) : (writeLed i t s).evPort = s.evPort := rfl
@[simp] theorem writeLed_outEv (i : Nat) (t : Rgb) : (writeLed i t s).outEv = s.outEv := rfl
@[simp] theorem writeLed_outLed (i : Nat) (t : Rgb) : (writeLed i t s).outLed = s.outLed := rfl
@[simp] theorem writeLed_outDraw (i : Nat) (t : Rgb) : (writeLed i t s).outDraw = s.outDraw := rfl
@[simp] theorem writeLed_cfg (i : Nat) (t : Rgb) : (writeLed i t s).cfg = s.cfg := rfl
@[simp] theorem writeLed_inputs (i : Nat) (t : Rgb) : (writeLed i t s).inputs = s.inputs := rfl
@[simp] theorem writeLed_scanScript (i : Nat) (t : Rgb) : (writeLed i t s).scanScript = s.scanScript := rfl
@[simp] theorem writeLed_drawScript (i : Nat) (t : Rgb) : (writeLed i t s).drawScript = s.drawScript := rfl
@[simp] theorem writeLed_freeScans (i : Nat) (t : Rgb) : (writeLed i t s).freeScans = s.freeScans := rfl
@[simp] theorem writeLed_freeDraws (i : Nat) (t : Rgb) : (writeLed i t s).freeDraws = s.freeDraws := rfl

/-! ### `fadeAll` -/

@[simp] theorem fadeAll_rowOut (d : Byte) : (fadeAll d s).rowOut = s.rowOut := rfl
@[simp] theorem fadeAll_resid (d : Byte) : (fadeAll d s).resid = s.resid := rfl
@[simp] theorem fadeAll_snap (d : Byte) : (fadeAll d s).snap = s.snap := rfl
@[simp] theorem fadeAll_stable (d : Byte) : (fadeAll d s).stable = s.stable := rfl
@[simp] theorem fadeAll_prevRaw (d : Byte) : (fadeAll d s).prevRaw = s.prevRaw := rfl
@[simp] theorem fadeAll_cnt (d : Byte) : (fadeAll d s).cnt = s.cnt := rfl
@[simp] theorem fadeAll_evq (d : Byte) : (fadeAll d s).evq = s.evq := rfl
@[simp] theorem fadeAll_frame (d : Byte) : (fadeAll d s).frame = s.frame.map (fade · d) := rfl
@[simp] theorem fadeAll_wpos (d : Byte) : (fadeAll d s).wpos = s.wpos := rfl
@[simp] theorem fadeAll_lcnt (d : Byte) : (fadeAll d s).lcnt = s.lcnt := rfl
@[simp] theorem fadeAll_cidx (d : Byte) : (fadeAll d s).cidx = s.cidx := rfl
@[simp] theorem fadeAll_cphase (d : Byte) : (fadeAll d s).cphase = s.cphase := rfl
@[simp] theorem fadeAll_mode (d : Byte) : (fadeAll d s).mode = s.mode := rfl
@[simp] theorem fadeAll_sprite (d : Byte) : (fadeAll d s).sprite = s.sprite := rfl
@[simp] theorem fadeAll_dcnt (d : Byte) : (fadeAll d s).dcnt = s.dcnt := rfl
@[simp] theorem fadeAll_dlast (d : Byte) : (fadeAll d s).dlast = s.dlast := rfl
@[simp] theorem fadeAll_fault (d : Byte) : (fadeAll d s).fault = s.fault := rfl
@[simp] theorem fadeAll_evPort (d : Byte) : (fadeAll d s).evPort = s.evPort := rfl
@[simp] theorem fadeAll_outEv (d : Byte) : (fadeAll d s).outEv = s.outEv := rfl
@[simp] theorem fadeAll_outLed (d : Byte) : (fadeAll d s).outLed = s.outLed := rfl
@[simp] theorem fadeAll_outDraw (d : Byte) : (fadeAll d s).outDraw = s.outDraw := rfl
@[simp] theorem fadeAll_cfg (d : Byte) : (fadeAll d s).cfg = s.cfg := rfl
@[simp] theorem fadeAll_inputs (d : Byte) : (fadeAll d s).inputs = s.inputs := rfl
@[simp] theorem fadeAll_scanScript (d : Byte) : (fadeAll d s).scanScript = s.scanScript := rfl
@[simp] theorem fadeAll_drawScript (d : Byte) : (fadeAll d s).drawScript = s.drawScript := rfl
@[simp] theorem fadeAll_freeScans (d : Byte) : (fadeAll d s).freeScans = s.freeScans := rfl
@[simp] theorem fadeAll_freeDraws (d : Byte) : (fadeAll d s).freeDraws = s.freeDraws := rfl

end Sys2Proof.Machine
end

