-- ==== Sys2Proof/Laws/Exec.lean ====
section
/-! SUPPORT. What `exec`, a command, an input and a step can do, each said once. -/

namespace Sys2Proof.Machine

/-- The state transformer an instruction runs on a block that is not halted. -/
def effect : Instr → State → State
  | .scan => scan
  | .debounce => debounce
  | .evpop => evpop
  | .ltick => ltick
  | .lkey => ledKeypress
  | .lframe => lframe
  | .lmode m => lmode m
  | .dtick => dtick
  | .dkey => displayKeypress

/-- Every instruction is performed: ignored when halted, otherwise its effect. -/
theorem exec_eq_perform (i : Instr) (s : State) : exec i s = perform (effect i) s := by cases i <;> rfl

/-- `halted` says `FAULT != 0`. -/
theorem halted_iff (s : State) : halted s = true ↔ s.fault ≠ 0 := by simp [halted]

/-- A running block runs the operation. -/
theorem perform_running {op : State → State} {s : State} (h : s.fault = 0) : perform op s = .next (op s) := by
  simp [perform, halted, h]

/-- A halted block ignores it. -/
theorem perform_halted {op : State → State} {s : State} (h : s.fault ≠ 0) : perform op s = .next s := by
  rw [perform, if_pos ((halted_iff s).mpr h)]

/-- A running block runs the instruction's effect. -/
theorem exec_running {i : Instr} {s : State} (h : s.fault = 0) : exec i s = .next (effect i s) := by
  rw [exec_eq_perform, perform_running h]

/-- A halted block ignores the instruction. -/
theorem exec_halted {i : Instr} {s : State} (h : s.fault ≠ 0) : exec i s = .next s := by
  rw [exec_eq_perform, perform_halted h]

/-- What an instruction can answer: a next state, the old one if halted, else its effect. -/
theorem exec_cases {i : Instr} {s t : State} (h : exec i s = .next t) :
    (s.fault ≠ 0 ∧ t = s) ∨ (s.fault = 0 ∧ t = effect i s) := by
  by_cases hf : s.fault = 0
  · rw [exec_running hf] at h
    exact .inr ⟨hf, by injection h with h; exact h.symm⟩
  · rw [exec_halted hf] at h
    exact .inl ⟨hf, by injection h with h; exact h.symm⟩

/-- What a step can do: hold, ignore, run an instruction, raise ILLCMD, or reset. -/
theorem step_cases {s t : State} (h : step s = .next t) :
    (s.inputs = [] ∧ t = s) ∨
    (∃ w rest, s.inputs = .command w :: rest ∧ s.fault ≠ 0 ∧ t = { s with inputs := rest }) ∨
    (∃ w rest i, s.inputs = .command w :: rest ∧ s.fault = 0 ∧ decode w = .ok i ∧
      t = effect i { s with inputs := rest }) ∨
    (∃ w rest e, s.inputs = .command w :: rest ∧ s.fault = 0 ∧ decode w = .error e ∧
      t = raiseFault causeIllcmd { s with inputs := rest }) ∨
    (∃ input rest, s.inputs = input :: rest ∧
      (∃ src, input = .reset src ∨ ∃ w, input = .commandCutByReset w src) ∧
      t = applyReset { s with inputs := rest }) := by
  unfold step takeInput at h
  split at h
  · rename_i hi
    exact .inl ⟨hi, by injection h with h; exact h.symm⟩
  · rename_i input rest hi
    cases input with
    | command w =>
      simp only [runInput, runCommand] at h
      split at h
      · rename_i i hd
        rcases exec_cases h with ⟨hf, ht⟩ | ⟨hf, ht⟩
        · exact .inr (.inl ⟨w, rest, hi, hf, ht⟩)
        · exact .inr (.inr (.inl ⟨w, rest, i, hi, hf, hd, ht⟩))
      · rename_i e hd
        by_cases hf : s.fault = 0
        · rw [perform_running (by exact hf)] at h
          exact .inr (.inr (.inr (.inl ⟨w, rest, e, hi, hf, hd, by injection h with h; exact h.symm⟩)))
        · rw [perform_halted (by exact hf)] at h
          exact .inr (.inl ⟨w, rest, hi, hf, by injection h with h; exact h.symm⟩)
    | reset src =>
      exact .inr (.inr (.inr (.inr ⟨_, rest, hi, ⟨src, .inl rfl⟩, by injection h with h; exact h.symm⟩)))
    | commandCutByReset w src =>
      exact .inr (.inr (.inr (.inr ⟨_, rest, hi, ⟨src, .inr ⟨w, rfl⟩⟩, by injection h with h; exact h.symm⟩)))

/-- A step always answers a next state: the block never stops. -/
theorem step_next (s : State) : ∃ t, step s = .next t := by
  unfold step takeInput
  split
  · exact ⟨_, rfl⟩
  · rename_i input rest hi
    cases input with
    | command w =>
      simp only [runInput, runCommand]
      split
      · rw [exec_eq_perform]; exact ⟨_, rfl⟩
      · exact ⟨_, rfl⟩
    | reset src => exact ⟨_, rfl⟩
    | commandCutByReset w src => exact ⟨_, rfl⟩

/-- A run of the machine goes on from the next state. -/
theorem run_succ {n : Nat} {s t : State} (h : step s = .next t) :
    Host.Core.run Sys2Proof.core (n + 1) s = Host.Core.run Sys2Proof.core n t := by
  have hc : Sys2Proof.core.step s = .next t := h
  simp only [Host.Core.run, hc]

/-- A list of operations run one after the other. -/
theorem execAll_cons_running {i : Instr} {rest : List Instr} {s : State} (h : s.fault = 0) :
    execAll (i :: rest) s = execAll rest (effect i s) := by
  simp [execAll, exec_running h]

/-- Two lists of operations, the second from where the first ends. -/
theorem execAll_append {a b : List Instr} {s t : State} (h : execAll a s = .next t) :
    execAll (a ++ b) s = execAll b t := by
  induction a generalizing s with
  | nil => simp only [execAll] at h; injection h with h; subst h; rfl
  | cons i rest ih =>
    simp only [List.cons_append, execAll] at h ⊢
    split at h
    · exact ih h
    · cases h
    · cases h

/-- A halted block ignores a whole list of operations (R286). -/
theorem execAll_halted {is : List Instr} {s : State} (h : s.fault ≠ 0) : execAll is s = .next s := by
  induction is with
  | nil => rfl
  | cons i rest ih => simp only [execAll, exec_halted h]; exact ih

/-- A list of operations always runs through. -/
theorem execAll_next (is : List Instr) (s : State) : ∃ t, execAll is s = .next t := by
  induction is generalizing s with
  | nil => exact ⟨s, rfl⟩
  | cons i rest ih =>
    by_cases h : s.fault = 0
    · rw [execAll_cons_running h]; exact ih _
    · rw [execAll_halted h]; exact ⟨s, rfl⟩

/-- Where a list of operations ends without a fault, it began without one. -/
theorem execAll_running {is : List Instr} {s t : State} (h : execAll is s = .next t) (ht : t.fault = 0) :
    s.fault = 0 := by
  by_contra hs
  rw [execAll_halted hs] at h
  injection h with h
  exact hs (h ▸ ht)

end Sys2Proof.Machine
end

