-- ==== Sys2Proof/Laws/Led.lean ====
section
/-! SUPPORT. The colours, the fade, and what each LED operation leaves, each said once as a state. -/

namespace Sys2Proof.Machine

/-- The whole wheel: in each segment one channel is 0 and the other two sum to 255. -/
theorem wheel_segments (p : Byte) :
    (p.toNat < 85 → wheel p = ⟨BitVec.ofNat 8 (255 - 3 * p.toNat), 0, BitVec.ofNat 8 (3 * p.toNat)⟩) ∧
    (85 ≤ p.toNat → p.toNat < 170 →
      wheel p = ⟨0, BitVec.ofNat 8 (3 * (p.toNat - 85)), BitVec.ofNat 8 (255 - 3 * (p.toNat - 85))⟩) ∧
    (170 ≤ p.toNat →
      wheel p = ⟨BitVec.ofNat 8 (3 * (p.toNat - 170)), BitVec.ofNat 8 (255 - 3 * (p.toNat - 170)), 0⟩) := by
  unfold wheel
  refine ⟨fun h => by simp [h], fun h₁ h₂ => ?_, fun h => ?_⟩
  · simp [Nat.not_lt.mpr h₁, h₂]
  · simp [Nat.not_lt.mpr h, Nat.not_lt.mpr (Nat.le_trans (by omega : 85 ≤ 170) h)]

/-- `sat_sub` is subtraction of natural numbers. -/
theorem satSub_toNat (a d : Byte) : (satSub a d).toNat = a.toNat - d.toNat := by
  unfold satSub
  split
  · rename_i h
    rw [BitVec.le_def] at h
    rw [BitVec.toNat_sub_of_le h]
  · rename_i h
    rw [BitVec.le_def] at h
    simp; omega

/-- Reading an LED after a whole-frame step. -/
theorem getD_map_of_lt {α β : Type} (f : α → β) (l : List α) (i : Nat) (a : α) (b : β) (h : i < l.length) :
    (l.map f).getD i b = f (l.getD i a) := by
  simp [List.getD, h]

/-- Reading an LED after one LED was written. -/
theorem getD_set {α : Type} (l : List α) (i j : Nat) (a d : α) (h : i < l.length) :
    (l.set i a).getD j d = if j = i then a else l.getD j d := by
  by_cases hij : j = i
  · subst hij; simp [List.getD, h]
  · simp [List.getD, hij, Ne.symm hij]

/-- The parameters that divide are positive and every LED number fits 16 bits (R8 to R12). -/
theorem config_bounds (p : Config) :
    (1 ≤ p.rows ∧ p.rows ≤ 256) ∧ (1 ≤ p.cols ∧ p.cols ≤ 256) ∧ (1 ≤ p.debounceN ∧ p.debounceN ≤ 65535) ∧
    (1 ≤ p.numLeds ∧ p.numLeds ≤ 65536) ∧ (∀ m, 1 ≤ divisor p.toParams m ∧ divisor p.toParams m ≤ 65535) ∧
    1 ≤ p.lightningOdds ∧ (1 ≤ p.displayTimeout ∧ p.displayTimeout ≤ 4294967295) := by
  have h := p.legal
  simp only [Params.legal, Bool.and_eq_true, Params.rowsOk, Params.colsOk, Params.debounceNOk, Params.numLedsOk,
    Params.divisorsOk, Params.divisorOk, Params.oddsOk, Params.timeoutOk, decide_eq_true_eq] at h
  obtain ⟨⟨⟨⟨⟨⟨h₁, h₂⟩, h₃⟩, h₄⟩, ⟨⟨⟨h₅, h₆⟩, h₇⟩, h₈⟩⟩, h₉⟩, h₁₀⟩ := h
  exact ⟨h₁, h₂, h₃, h₄, fun m => by cases m <;> assumption, h₉, h₁₀⟩

/-- The next chase index is an LED, and the register holds it whole (R207 (b)). -/
theorem chaseIndex_toNat (s : State) :
    (BitVec.ofNat 16 (nextChaseIndex s)).toNat = (s.cidx.toNat + 1) % s.cfg.numLeds ∧
    (s.cidx.toNat + 1) % s.cfg.numLeds < s.cfg.numLeds := by
  have h := (config_bounds s.cfg).2.2.2.1
  have hlt : (s.cidx.toNat + 1) % s.cfg.numLeds < s.cfg.numLeds := Nat.mod_lt _ (by omega)
  exact ⟨by rw [BitVec.toNat_ofNat, nextChaseIndex]; exact Nat.mod_eq_of_lt (by omega), hlt⟩

/-- What the Chase update and the Chase keypress share (R193, R200). -/
theorem chaseStep_eq (s : State) :
    chaseStep s = { s with
      cidx := BitVec.ofNat 16 (nextChaseIndex s)
      frame := s.frame.set ((s.cidx.toNat + 1) % s.cfg.numLeds) (wheel s.cphase)
      cphase := s.cphase + s.cfg.cstep } := by
  have h := (chaseIndex_toNat s).1
  simp only [chaseStep, advanceIndex, light, advancePhase, writeLed, h]

/-- Chase2's update before its fade (R194). -/
theorem updateChase2_eq (s : State) :
    updateChase2 s = { s with
      cidx := BitVec.ofNat 16 (nextChaseIndex s)
      frame := ((s.frame.set ((s.cidx.toNat + 1) % s.cfg.numLeds) (wheel s.cphase)).set
        (((s.cidx.toNat + 1) % s.cfg.numLeds + s.cfg.numLeds / 2) % s.cfg.numLeds) (wheel s.cphase)).map
          (fade · s.cfg.cfade)
      cphase := s.cphase + s.cfg.cstep } := by
  have h := (chaseIndex_toNat s).1
  simp only [updateChase2, advanceIndex, light, advancePhase, writeLed, fadeAll, oppositeIndex, h]

/-- `LTICK` when no update is due (R189). -/
theorem ltick_counts {s : State} (h : (s.lcnt + 1).toNat < divisor s.cfg.toParams s.mode) :
    ltick s = { s with lcnt := s.lcnt + 1 } := by
  exact if_neg (by simpa only [updateDue, decide_eq_true_eq] using Nat.not_le.mpr h)

/-- `LTICK` when the update is due (R189). -/
theorem ltick_updates {s : State} (h : divisor s.cfg.toParams s.mode ≤ (s.lcnt + 1).toNat) :
    ltick s = updateMode { s with lcnt := 0 } := by
  exact if_pos (by simpa only [updateDue, decide_eq_true_eq] using h)

/-- The counter's increment does not wrap below a divisor (R207 (c)). -/
theorem lcnt_succ_toNat {s : State} (h : s.lcnt.toNat + 1 ≤ divisor s.cfg.toParams s.mode) :
    (s.lcnt + 1).toNat = s.lcnt.toNat + 1 := by
  have hb := ((config_bounds s.cfg).2.2.2.2.1 s.mode).2
  rw [BitVec.toNat_add]
  exact Nat.mod_eq_of_lt (by simp; omega)

/-- The `LTICK` that follows `n` others since `LCNT` was 0: it updates when its own number `n + 1` is a multiple of the divisor,
and otherwise only counts (R190). -/
theorem ltick_number {s : State} {n : Nat} (h : s.lcnt.toNat = n % divisor s.cfg.toParams s.mode) :
    ((n + 1) % divisor s.cfg.toParams s.mode = 0 → ltick s = updateMode { s with lcnt := 0 }) ∧
    ((n + 1) % divisor s.cfg.toParams s.mode ≠ 0 →
      ltick s = { s with lcnt := s.lcnt + 1 } ∧
      (s.lcnt + 1).toNat = (n + 1) % divisor s.cfg.toParams s.mode) := by
  have hb := (config_bounds s.cfg).2.2.2.2.1 s.mode
  have hlt : n % divisor s.cfg.toParams s.mode < divisor s.cfg.toParams s.mode := Nat.mod_lt _ (by omega)
  have hs : (s.lcnt + 1).toNat = n % divisor s.cfg.toParams s.mode + 1 := by rw [lcnt_succ_toNat (by omega), h]
  rw [← Nat.mod_add_mod]
  by_cases hc : n % divisor s.cfg.toParams s.mode + 1 = divisor s.cfg.toParams s.mode
  · refine ⟨fun _ => ltick_updates (by omega), fun h0 => absurd ?_ h0⟩
    rw [hc, Nat.mod_self]
  · rw [Nat.mod_eq_of_lt (by omega)]
    exact ⟨fun h0 => absurd h0 (by omega), fun _ => ⟨ltick_counts (by omega), hs⟩⟩

/-- Lightning's flash changes the frame and the draws taken, nothing else (R192). -/
theorem lightningFlash_frame (s : State) :
    lightningFlash s = { s with
      frame := (lightningFlash s).frame
      drawScript := (lightningFlash s).drawScript
      freeDraws := (lightningFlash s).freeDraws } := by
  unfold lightningFlash
  dsimp only
  split <;> rfl

/-- An update changes only the LED animator's own state (R191 to R194). -/
theorem updateMode_frame (s : State) :
    updateMode s = { s with
      frame := (updateMode s).frame
      wpos := (updateMode s).wpos
      cidx := (updateMode s).cidx
      cphase := (updateMode s).cphase
      drawScript := (updateMode s).drawScript
      freeDraws := (updateMode s).freeDraws } := by
  unfold updateMode
  split
  · rfl
  · unfold updateLightning
    dsimp only [fadeAll]
    split
    · rw [lightningFlash_frame]; rfl
    · rfl
  · rw [updateChase, chaseStep_eq]; rfl
  · rw [updateChase2_eq]

/-- `LTICK` changes only the LED animator's own state, `MODE` apart (R56). -/
theorem ltick_frame (s : State) :
    ltick s = { s with
      frame := (ltick s).frame
      wpos := (ltick s).wpos
      lcnt := (ltick s).lcnt
      cidx := (ltick s).cidx
      cphase := (ltick s).cphase
      drawScript := (ltick s).drawScript
      freeDraws := (ltick s).freeDraws } := by
  unfold ltick
  dsimp only
  split
  · rw [updateMode_frame]
  · rfl

/-- The keypress reaction changes the frame, the chase registers and the draws taken, nothing else (R197, R202). -/
theorem ledKeypress_frame (s : State) :
    ledKeypress s = { s with
      frame := (ledKeypress s).frame
      cidx := (ledKeypress s).cidx
      cphase := (ledKeypress s).cphase
      drawScript := (ledKeypress s).drawScript
      freeDraws := (ledKeypress s).freeDraws } := by
  unfold ledKeypress
  split
  · rfl
  · rfl
  · rw [keypressChase, chaseStep_eq]
  · rfl

/-- `LMODE` changes only the mode, the counters, and the positions or the frame (R184). -/
theorem lmode_frame (m : Mode) (s : State) :
    lmode m s = { s with
      mode := m, lcnt := 0, cidx := 0, cphase := 0
      frame := (lmode m s).frame
      wpos := (lmode m s).wpos } := by
  cases m <;> rfl

/-- The display's keypress reaction (R240). -/
theorem displayKeypress_eq (s : State) :
    displayKeypress s = { s with
      sprite := nextTap s.sprite, dlast := s.dcnt, outDraw := s.outDraw ++ [nextTap s.sprite] } := rfl

/-- `DTICK` changes only the display's own state (R241). -/
theorem dtick_frame (s : State) :
    dtick s = { s with dcnt := s.dcnt + 1, sprite := (dtick s).sprite, outDraw := (dtick s).outDraw } := by
  unfold dtick
  dsimp only
  split <;> rfl

end Sys2Proof.Machine
end

