-- ==== Sys2Proof/Laws/Debounce.lean ====
section
/-! SUPPORT. The comparator of one key, the events of one `DEBOUNCE`, and what `EVPOP` does with the head of the queue. -/

namespace Sys2Proof.Machine

/-- A raw bit equal to the stable state: no change pending (R151). -/
theorem keyUpdate_same (n : Nat) (raw prevRaw : Bool) (cnt : Half) :
    keyUpdate n raw raw prevRaw cnt = { stable := raw, prevRaw := raw, cnt := 0, fired := false } := by
  simp [keyUpdate]

/-- The comparator always retains the raw bit (R151). -/
theorem keyUpdate_prevRaw (n : Nat) (raw stable prevRaw : Bool) (cnt : Half) :
    (keyUpdate n raw stable prevRaw cnt).prevRaw = raw := by
  unfold keyUpdate
  split
  · rfl
  · dsimp only
    generalize (if raw = prevRaw then cnt + 1 else 1 : Half) = m
    split <;> rfl

/-- A change is confirmed exactly when the stable state changes (R155). -/
theorem keyUpdate_fired_iff (n : Nat) (raw stable prevRaw : Bool) (cnt : Half) :
    (keyUpdate n raw stable prevRaw cnt).fired = true ↔ (keyUpdate n raw stable prevRaw cnt).stable ≠ stable := by
  unfold keyUpdate
  split
  · simp
  · rename_i h
    dsimp only
    generalize (if raw = prevRaw then cnt + 1 else 1 : Half) = m
    split
    · simp [h]
    · simp

/-- Below the threshold the count goes on; at the threshold the change is confirmed (R151, with R158's reading of
`PREV_RAW`). -/
theorem keyUpdate_differs {n : Nat} {raw stable prevRaw : Bool} {cnt : Half} (hn : n ≤ 65535) (hc : cnt.toNat < n)
    (hz : cnt = 0 ↔ prevRaw = stable) (hd : raw ≠ stable) :
    keyUpdate n raw stable prevRaw cnt =
      if n ≤ cnt.toNat + 1 then { stable := raw, prevRaw := raw, cnt := 0, fired := true }
      else { stable := stable, prevRaw := raw, cnt := cnt + 1, fired := false } := by
  have hcount : (if raw = prevRaw then cnt + 1 else 1 : Half) = cnt + 1 := by
    split
    · rfl
    · rename_i h
      have : prevRaw = stable := by cases raw <;> cases prevRaw <;> cases stable <;> simp_all
      rw [hz.mpr this]; rfl
  have hnat : (cnt + 1).toNat = cnt.toNat + 1 := by
    rw [BitVec.toNat_add]
    exact Nat.mod_eq_of_lt (by simp; omega)
  unfold keyUpdate
  rw [if_neg hd]
  simp only [hcount, hnat]

/-- After the comparator the count is below the threshold (R155). -/
theorem keyUpdate_cnt_lt {n : Nat} (hn : 1 ≤ n) (raw stable prevRaw : Bool) (cnt : Half) :
    (keyUpdate n raw stable prevRaw cnt).cnt.toNat < n := by
  unfold keyUpdate
  split
  · exact hn
  · dsimp only
    generalize (if raw = prevRaw then cnt + 1 else 1 : Half) = m
    split
    · exact hn
    · rename_i h; exact Nat.not_le.mp h

/-- After the comparator the count is 0 exactly where the raw bit equals the stable state (R158). -/
theorem keyUpdate_cntZero {n : Nat} (hn : 1 ≤ n ∧ n ≤ 65535) {raw stable prevRaw : Bool} {cnt : Half}
    (hc : cnt.toNat < n) :
    (keyUpdate n raw stable prevRaw cnt).cnt = 0 ↔
      (keyUpdate n raw stable prevRaw cnt).prevRaw = (keyUpdate n raw stable prevRaw cnt).stable := by
  unfold keyUpdate
  split
  · rename_i h; simp [h]
  · rename_i h
    have hm : (if raw = prevRaw then cnt + 1 else 1 : Half) ≠ 0 := by
      split
      · intro h0
        have hnat : (cnt + 1).toNat = cnt.toNat + 1 := by
          rw [BitVec.toNat_add]
          exact Nat.mod_eq_of_lt (by simp; omega)
        rw [h0] at hnat
        simp at hnat
      · decide
    dsimp only
    generalize (if raw = prevRaw then cnt + 1 else 1 : Half) = m at hm ⊢
    split
    · simp
    · exact ⟨fun h0 => absurd h0 hm, fun h0 => absurd h0 h⟩

/-- The event of a key, when its stable state changes (R150, R156). -/
theorem keyEvent_eq_some (s : State) (r c : Nat) (e : EventWord) :
    keyEvent s r c = some e ↔
      (keyUpdateAt s r c).stable ≠ gridAt s.stable r c ∧ e = eventWord (keyUpdateAt s r c).stable r c := by
  unfold keyEvent
  dsimp only
  have := keyUpdate_fired_iff s.cfg.debounceN (gridAt s.snap r c) (gridAt s.stable r c) (gridAt s.prevRaw r c)
    (gridAt s.cnt r c)
  change (keyUpdateAt s r c).fired = true ↔ (keyUpdateAt s r c).stable ≠ gridAt s.stable r c at this
  split
  · rename_i h
    simp only [Option.some.injEq]
    exact ⟨fun he => ⟨this.mp h, he.symm⟩, fun he => he.2.symm⟩
  · rename_i h
    simp only [reduceCtorEq, false_iff]
    exact fun he => h (this.mpr he.1)

/-- Which events a `DEBOUNCE` queues (R150). -/
theorem mem_debounceEvents (s : State) (e : EventWord) :
    e ∈ debounceEvents s ↔ ∃ r < s.cfg.rows, ∃ c < s.cfg.cols,
      (keyUpdateAt s r c).stable ≠ gridAt s.stable r c ∧ e = eventWord (keyUpdateAt s r c).stable r c := by
  simp only [debounceEvents, List.mem_filterMap, mem_keysInOrder, keyEvent_eq_some]
  constructor
  · rintro ⟨k, ⟨hr, hc⟩, h⟩
    exact ⟨k.1, hr, k.2, hc, h⟩
  · rintro ⟨r, hr, c, hc, h⟩
    exact ⟨(r, c), ⟨hr, hc⟩, h⟩

/-- The event word of an existing key carries its row and column. -/
theorem event_key (p : Config) (press : Bool) {r c : Nat} (hr : r < p.rows) (hc : c < p.cols) :
    eventRow (eventWord press r c) = r ∧ eventCol (eventWord press r c) = c := by
  obtain ⟨⟨_, h₁⟩, ⟨_, h₂⟩, _⟩ := config_bounds p
  exact ⟨eventRow_eventWord press (by omega) (by omega), eventCol_eventWord press (by omega) (by omega)⟩

/-- The events of one `DEBOUNCE` are in row-major order (R152). -/
theorem debounceEvents_sorted (s : State) : (debounceEvents s).Pairwise EventBefore := by
  unfold debounceEvents
  rw [List.pairwise_filterMap]
  refine (keysInOrder_pairwise s.cfg.toParams).imp_of_mem ?_
  intro a b ha hb hab e he e' he'
  obtain ⟨har, hac⟩ := (mem_keysInOrder _ _).mp ha
  obtain ⟨hbr, hbc⟩ := (mem_keysInOrder _ _).mp hb
  obtain ⟨_, rfl⟩ := (keyEvent_eq_some _ _ _ _).mp he
  obtain ⟨_, rfl⟩ := (keyEvent_eq_some _ _ _ _).mp he'
  obtain ⟨h₁, h₂⟩ := event_key s.cfg (keyUpdateAt s a.1 a.2).stable har hac
  obtain ⟨h₃, h₄⟩ := event_key s.cfg (keyUpdateAt s b.1 b.2).stable hbr hbc
  simpa only [EventBefore, h₁, h₂, h₃, h₄] using hab

/-- At most one event a key (R152). -/
theorem debounceEvents_length (s : State) : (debounceEvents s).length ≤ s.cfg.rows * s.cfg.cols := by
  rw [← keysInOrder_length]
  exact List.length_filterMap_le _ _

/-- `EVPOP` of a Press: the LED reaction, the display reaction, then the event (R160, R161). -/
theorem evpop_press {s : State} {e : EventWord} {rest : List EventWord} (hq : s.evq = e :: rest)
    (hp : eventIsPress e = true) :
    evpop s = emitEv e (displayKeypress (ledKeypress { s with evq := rest })) := by
  unfold evpop
  rw [hq]
  exact congrArg (emitEv e) (if_pos hp)

/-- `EVPOP` of a Release: the event alone (R160, R161). -/
theorem evpop_release {s : State} {e : EventWord} {rest : List EventWord} (hq : s.evq = e :: rest)
    (hp : eventIsPress e = false) : evpop s = emitEv e { s with evq := rest } := by
  unfold evpop
  rw [hq]
  exact congrArg (emitEv e) (if_neg (by simp [hp]))

/-- What `EVPOP` changes: the queue, the port and the trace of events, and on a Press what the keypress reactions change
(R160). -/
theorem evpop_frame (s : State) :
    evpop s = { s with
      evq := s.evq.tail
      evPort := s.evq.headD eventNone
      outEv := s.outEv ++ s.evq.take 1
      frame := (evpop s).frame
      cidx := (evpop s).cidx
      cphase := (evpop s).cphase
      sprite := (evpop s).sprite
      dlast := (evpop s).dlast
      outDraw := (evpop s).outDraw
      drawScript := (evpop s).drawScript
      freeDraws := (evpop s).freeDraws } := by
  unfold evpop
  split
  · rename_i h
    simp only [h, List.tail_nil, List.headD_nil, List.take_nil, List.append_nil]
  · rename_i e rest h
    simp only [h, List.tail_cons, List.headD_cons, List.take_succ_cons, List.take_zero]
    split
    · simp only [displayKeypress_eq]
      rw [ledKeypress_frame]
      rfl
    · rfl

/-- A run of `EVPOP`s hands over that many events, in order (R160). -/
theorem evpop_run (n : Nat) : ∀ s : State, s.fault = 0 →
    ∃ t, execAll (List.replicate n .evpop) s = .next t ∧ t.outEv = s.outEv ++ s.evq.take n ∧
      t = { s with
        evq := s.evq.drop n
        evPort := t.evPort
        outEv := t.outEv
        frame := t.frame
        cidx := t.cidx
        cphase := t.cphase
        sprite := t.sprite
        dlast := t.dlast
        outDraw := t.outDraw
        drawScript := t.drawScript
        freeDraws := t.freeDraws } := by
  induction n with
  | zero => intro s _; exact ⟨s, rfl, by simp, rfl⟩
  | succ n ih =>
    intro s hf
    have hfr := evpop_frame s
    have hf' : (evpop s).fault = 0 := by rw [hfr]; exact hf
    obtain ⟨t, ht, hout, heq⟩ := ih (evpop s) hf'
    refine ⟨t, ?_, ?_, ?_⟩
    · rw [List.replicate_succ, execAll_cons_running hf]; exact ht
    · have h₁ : (evpop s).outEv = s.outEv ++ s.evq.take 1 := by rw [hfr]
      have h₂ : (evpop s).evq = s.evq.tail := by rw [hfr]
      rw [hout, h₁, h₂]
      cases s.evq <;> simp
    · have h₂ : (evpop s).evq.drop n = s.evq.drop (n + 1) := by rw [hfr]; simp
      rw [heq, h₂, hfr]

end Sys2Proof.Machine
end

