-- ==== Sys2Proof/Laws/Scan.lean ====
section
/-! SUPPORT. What one `SCAN` leaves: the samples it takes, the row lines and the ages, by one induction over the rows. -/

namespace Sys2Proof.Machine

/-- Ages add up, and stay settled once they have reached the settling time (R35). -/
theorem residualAfter_residualOf (p : Params) (n us : Nat) :
    residualAfter p us (residualOf p n) = residualOf p (n + us) := by
  unfold residualOf
  split
  · rename_i h
    rw [if_pos (by omega)]; rfl
  · rfl

/-- An age is not settled exactly while it is below the settling time. -/
theorem residualOf_ne_settled (p : Params) (n : Nat) : residualOf p n ≠ .settled ↔ n < p.settleMinUs := by
  unfold residualOf
  split
  · rename_i h
    exact ⟨fun h' => absurd rfl h', fun h' => by omega⟩
  · rename_i h
    exact ⟨fun _ => by omega, fun _ => by simp⟩

/-- After the time between two scans every row is settled (R35). -/
theorem residualAfter_settleMin (p : Params) (x : Residual) : residualAfter p p.settleMinUs x = .settled := by
  cases x with
  | settled => rfl
  | age n => exact if_pos (Nat.le_add_left _ _)

/-- No stored age has reached the settling time. -/
theorem residualAfter_age_lt (p : Params) (us n : Nat) (x : Residual) (h : residualAfter p us x = .age n) :
    n < p.settleMinUs := by
  cases x with
  | settled => cases h
  | age m =>
    simp only [residualAfter, residualOf] at h
    split at h
    · cases h
    · injection h with h; omega

/-- The ages when the scan reaches row `k`: the rows before it count the delays since their deactivation, the others are
settled. -/
def AgesAt (k : Nat) (s : State) : Prop :=
  s.resid.length = s.cfg.rows ∧ ∀ r < s.cfg.rows, s.resid.getD r .settled =
    if r < k then residualOf s.cfg.toParams ((k - r) * s.cfg.settleUs) else .settled

/-- The row lines when the scan reaches row `k`: those before it are inactive. -/
def RowsDoneAt (k : Nat) (s : State) : Prop :=
  s.rowOut.length = s.cfg.rows ∧ ∀ r < k, s.rowOut.getD r .inactive = .inactive

/-- What the sample of (r, c) may be: the key, or a leak of an earlier row that is too young (R138). -/
def sampleAt (p : Params) (a : ScanAnswers) (r c : Nat) : Prop :=
  keyReads a r r c = true ∨ (gridAt a.leaks r c = true ∧
    ∃ r' < r, (r - r') * p.settleUs < p.settleMinUs ∧ keyReads a r r' c = true)

/-- A sample taken in row `k` is the key or a leak (R138). -/
theorem colSample_spec (a : ScanAnswers) (k c : Nat) (s : State) (hk : k < s.cfg.rows) (h : AgesAt k s) :
    colSample a k c s = true ↔ sampleAt s.cfg.toParams a k c := by
  have hu : ∀ r < s.cfg.rows, unsettled s r = true ↔ r < k ∧ (k - r) * s.cfg.settleUs < s.cfg.settleMinUs := by
    intro r hr
    have hres := h.2 r hr
    simp only [unsettled, hres, bne_iff_ne]
    by_cases hrk : r < k
    · rw [if_pos hrk, residualOf_ne_settled]; exact ⟨fun h => ⟨hrk, h⟩, fun h => h.2⟩
    · rw [if_neg hrk]; exact ⟨fun h => absurd rfl h, fun h => absurd h.1 hrk⟩
  simp only [colSample, sampleAt, Bool.or_eq_true, Bool.and_eq_true, List.any_eq_true, List.mem_range]
  constructor
  · rintro (h₁ | ⟨hl, r', hr', ⟨_, hun⟩, hk'⟩)
    · exact .inl h₁
    · obtain ⟨hlt, hage⟩ := (hu r' hr').mp hun
      exact .inr ⟨hl, r', hlt, hage, hk'⟩
  · rintro (h₁ | ⟨hl, r', hlt, hage, hk'⟩)
    · exact .inl h₁
    · have hr' : r' < s.cfg.rows := by omega
      exact .inr ⟨hl, r', hr', ⟨by simp; omega, (hu r' hr').mpr ⟨hlt, hage⟩⟩, hk'⟩

/-- One row of the scan: its samples, and the ages and row lines when the next row is reached. -/
theorem scanRow_spec (a : ScanAnswers) (k : Nat) (s : State) (hk : k < s.cfg.rows) (h : AgesAt k s)
    (hr : RowsDoneAt k s) :
    (scanRow a k s).1.length = s.cfg.cols ∧
    (∀ c < s.cfg.cols, (scanRow a k s).1.getD c default = true ↔ sampleAt s.cfg.toParams a k c) ∧
    AgesAt (k + 1) (scanRow a k s).2 ∧ RowsDoneAt (k + 1) (scanRow a k s).2 ∧
    (scanRow a k s).2 = { s with rowOut := (scanRow a k s).2.rowOut, resid := (scanRow a k s).2.resid } := by
  have hd : AgesAt k (rowDrive k .active s) := h
  refine ⟨by simp [scanRow], ?_, ⟨?_, ?_⟩, ⟨?_, ?_⟩, rfl⟩
  · intro c hc
    have := colSample_spec a k c (rowDrive k .active s) hk hd
    rw [← rowDrive_cfg s k .active, ← this]
    simp [scanRow, List.getD, hc]
  · simp [scanRow, h.1]
  · intro r hrr
    have hl : r < s.resid.length := by rw [h.1]; exact hrr
    have hres := h.2 r hrr
    have hmap : (scanRow a k s).2.resid.getD r .settled =
        residualAfter s.cfg.toParams s.cfg.settleUs
          ((s.resid.set k (residualOf s.cfg.toParams 0)).getD r .settled) := by
      have : r < (s.resid.set k (residualOf s.cfg.toParams 0)).length := by simpa using hl
      exact getD_map_of_lt (residualAfter s.cfg.toParams s.cfg.settleUs) _ r .settled .settled this
    rw [hmap, getD_set _ _ _ _ _ (by rw [h.1]; exact hk)]
    show _ = if r < k + 1 then residualOf s.cfg.toParams ((k + 1 - r) * s.cfg.settleUs) else .settled
    by_cases hrk : r = k
    · subst hrk
      rw [if_pos rfl, residualAfter_residualOf, if_pos (Nat.lt_succ_self _)]
      congr 1
      simp
    · rw [if_neg hrk, hres]
      by_cases hlt : r < k
      · rw [if_pos hlt, if_pos (by omega), residualAfter_residualOf]
        congr 1
        rw [show k + 1 - r = (k - r) + 1 by omega, Nat.add_mul, Nat.one_mul]
      · rw [if_neg hlt, if_neg (by omega)]; rfl
  · simp [scanRow, hr.1]
  · intro r hrr
    have hlk : k < (s.rowOut.set k .active).length := by simpa [hr.1] using hk
    have : (scanRow a k s).2.rowOut = (s.rowOut.set k .active).set k .inactive := rfl
    rw [this, getD_set _ _ _ _ _ hlk]
    by_cases hrk : r = k
    · rw [if_pos hrk]
    · rw [if_neg hrk, getD_set _ _ _ _ _ (by rw [hr.1]; exact hk), if_neg hrk]
      exact hr.2 r (by omega)

/-- The rows from `k` on: every sample, and the ages and row lines at the end. -/
theorem scanRows_spec (a : ScanAnswers) (n : Nat) : ∀ (k : Nat) (s : State), k + n = s.cfg.rows → AgesAt k s →
    RowsDoneAt k s →
    (scanRows a (List.range' k n) s).1.length = n ∧
    (∀ row ∈ (scanRows a (List.range' k n) s).1, row.length = s.cfg.cols) ∧
    (∀ j < n, ∀ c < s.cfg.cols, gridAt (scanRows a (List.range' k n) s).1 j c = true ↔
      sampleAt s.cfg.toParams a (k + j) c) ∧
    AgesAt s.cfg.rows (scanRows a (List.range' k n) s).2 ∧
    RowsDoneAt s.cfg.rows (scanRows a (List.range' k n) s).2 ∧
    (scanRows a (List.range' k n) s).2 = { s with
      rowOut := (scanRows a (List.range' k n) s).2.rowOut
      resid := (scanRows a (List.range' k n) s).2.resid } := by
  induction n with
  | zero =>
    intro k s hk ha hr
    have hk : s.cfg.rows = k := by omega
    refine ⟨rfl, by simp [scanRows], by omega, ?_, ?_, rfl⟩
    · rw [hk]; exact ha
    · rw [hk]; exact hr
  | succ n ih =>
    intro k s hk ha hr
    obtain ⟨hlen, hsam, ha', hr', hfr⟩ := scanRow_spec a k s (by omega) ha hr
    have hcfg : (scanRow a k s).2.cfg = s.cfg := by rw [hfr]
    obtain ⟨il, irow, isam, iage, irows, ifr⟩ := ih (k + 1) (scanRow a k s).2 (by rw [hcfg]; omega) ha' hr'
    simp only [hcfg] at il irow isam iage irows
    have hs : scanRows a (List.range' k (n + 1)) s =
        ((scanRow a k s).1 :: (scanRows a (List.range' (k + 1) n) (scanRow a k s).2).1,
          (scanRows a (List.range' (k + 1) n) (scanRow a k s).2).2) := rfl
    rw [hs]
    refine ⟨by simp [il], ?_, ?_, iage, irows, ?_⟩
    · intro row hrow
      rcases List.mem_cons.mp hrow with h | h
      · rw [h, hlen]
      · exact irow row h
    · intro j hj c hc
      cases j with
      | zero =>
        have := hsam c hc
        simpa [gridAt] using this
      | succ j =>
        have := isam j (by omega) c hc
        rw [show k + (j + 1) = k + 1 + j by omega]
        simpa [gridAt] using this
    · calc (scanRows a (List.range' (k + 1) n) (scanRow a k s).2).2
          = _ := ifr
        _ = _ := by rw [hfr]

/-- A scan whose pins work (R130, R138). -/
theorem scan_completes_spec (s : State) (hp : PinsWork s) (hrow : s.rowOut.length = s.cfg.rows)
    (hres : s.resid.length = s.cfg.rows) :
    GridShape s.cfg.toParams (scan s).snap ∧
    (∀ r < s.cfg.rows, ∀ c < s.cfg.cols, gridAt (scan s).snap r c = true ↔
      sampleAt s.cfg.toParams (scanAnswer s) r c) ∧
    AgesAt s.cfg.rows (scan s) ∧
    scan s = { s with
      snap := (scan s).snap
      rowOut := List.replicate s.cfg.rows .inactive
      resid := (scan s).resid
      scanScript := s.scanScript.tail
      freeScans := if s.scanScript.isEmpty then s.freeScans + 1 else s.freeScans } := by
  have hnf : pinFailure s.cfg.toParams (scanAnswer s) = false := by
    unfold pinFailure
    split
    · rename_i k hk
      simpa using hp k hk
    · rfl
  let begun := delayUs s.cfg.settleMinUs (afterScanAnswer s)
  have hage : AgesAt 0 begun := by
    refine ⟨by simpa [begun] using hres, ?_⟩
    intro r hr
    have hl : r < s.resid.length := by rw [hres]; exact hr
    rw [if_neg (Nat.not_lt_zero r)]
    show (s.resid.map (residualAfter s.cfg.toParams s.cfg.settleMinUs)).getD r .settled = .settled
    rw [getD_map_of_lt _ _ _ .settled _ hl, residualAfter_settleMin]
  have hdone : RowsDoneAt 0 begun := ⟨hrow, fun r h => absurd h (Nat.not_lt_zero r)⟩
  obtain ⟨h₁, h₂, h₃, h₄, h₅, h₆⟩ :=
    scanRows_spec (scanAnswer s) s.cfg.rows 0 begun (Nat.zero_add _) hage hdone
  have hscan : scan s = { (scanRows (scanAnswer s) (List.range' 0 s.cfg.rows) begun).2 with
      snap := (scanRows (scanAnswer s) (List.range' 0 s.cfg.rows) begun).1 } := by
    simp only [scan, hnf, Bool.false_eq_true, if_false, scanCompletes, List.range_eq_range']
    rfl
  have hrows : (scanRows (scanAnswer s) (List.range' 0 s.cfg.rows) begun).2.rowOut =
      List.replicate s.cfg.rows .inactive := by
    have hl : (scanRows (scanAnswer s) (List.range' 0 s.cfg.rows) begun).2.rowOut.length = s.cfg.rows := by
      have := h₅.1
      rw [this, h₆]; rfl
    refine List.ext_getElem (by simp [hl]) ?_
    intro i hi _
    have := h₅.2 i (by rw [hl] at hi; exact hi)
    simpa [List.getD, hi] using this
  refine ⟨?_, ?_, ?_, ?_⟩
  · rw [hscan]; exact ⟨h₁, h₂⟩
  · intro r hr c hc
    have := h₃ r hr c hc
    rw [Nat.zero_add] at this
    rw [hscan]; exact this
  · rw [hscan]; exact h₄
  · rw [← hrows]
    conv_lhs => rw [hscan, h₆]
    rw [hscan]
    rfl

/-- A scan stopped by a failing pin operation (R140). -/
theorem scan_fails_spec (s : State) (hp : ¬ PinsWork s) :
    (scan s).rowOut.length = s.cfg.rows ∧ (scan s).resid.length = s.cfg.rows ∧
    (∀ us, Residual.age us ∈ (scan s).resid → us < s.cfg.settleMinUs) ∧
    scan s = { s with
      fault := s.fault ||| faultBit causeIoerr
      rowOut := (scan s).rowOut
      resid := (scan s).resid
      scanScript := s.scanScript.tail
      freeScans := if s.scanScript.isEmpty then s.freeScans + 1 else s.freeScans } := by
  have hf : pinFailure s.cfg.toParams (scanAnswer s) = true := by
    unfold PinsWork at hp
    push Not at hp
    obtain ⟨k, hk, hlt⟩ := hp
    simp [pinFailure, hk, hlt]
  have hscan : scan s = scanFails (scanAnswer s) (delayUs s.cfg.settleMinUs (afterScanAnswer s)) := by
    simp only [scan, hf, if_true]
  rw [hscan]
  refine ⟨by simp [scanFails], by simp [scanFails], ?_, rfl⟩
  intro us h
  simp only [scanFails, raiseFault, List.mem_map, List.mem_range] at h
  obtain ⟨r, _, hr⟩ := h
  exact residualAfter_age_lt _ _ _ _ hr

end Sys2Proof.Machine
end

