-- ==== Sys2Proof/Laws/Effect.lean ====
section
/-! SUPPORT. The frames of `SCAN` and `DEBOUNCE` on every path, and which operations can raise a fault. -/

namespace Sys2Proof.Machine

/-- The loop over the rows changes the row lines and the ages, nothing else (R130). -/
theorem scanRows_frame (a : ScanAnswers) (rows : List Nat) : ∀ s : State,
    (scanRows a rows s).2 = { s with
      rowOut := (scanRows a rows s).2.rowOut, resid := (scanRows a rows s).2.resid } := by
  induction rows with
  | nil => intro s; rfl
  | cons r rest ih =>
    intro s
    simp only [scanRows]
    rw [ih]
    rfl

/-- What `SCAN` can change, whether or not a pin operation fails (R130, R140). -/
theorem scan_frame (s : State) :
    scan s = { s with
      fault := (scan s).fault
      snap := (scan s).snap
      rowOut := (scan s).rowOut
      resid := (scan s).resid
      scanScript := (scan s).scanScript
      freeScans := (scan s).freeScans } := by
  simp only [scan]
  split
  · rfl
  · simp only [scanCompletes]
    rw [scanRows_frame]
    rfl

/-- What `DEBOUNCE` can change, whether or not the queue is drained (R150, R163). -/
theorem debounce_frame (s : State) :
    debounce s = { s with
      fault := (debounce s).fault
      stable := (debounce s).stable
      prevRaw := (debounce s).prevRaw
      cnt := (debounce s).cnt
      evq := (debounce s).evq } := by
  unfold debounce
  split <;> rfl

/-- No operation but `SCAN` and `DEBOUNCE` touches `FAULT` (R280). -/
theorem effect_fault {i : Instr} (hs : i ≠ .scan) (hd : i ≠ .debounce) (s : State) :
    (effect i s).fault = s.fault := by
  cases i with
  | scan => exact absurd rfl hs
  | debounce => exact absurd rfl hd
  | evpop => exact (congrArg State.fault (evpop_frame s) : (evpop s).fault = _)
  | ltick => exact (congrArg State.fault (ltick_frame s) : (ltick s).fault = _)
  | lkey => exact (congrArg State.fault (ledKeypress_frame s) : (ledKeypress s).fault = _)
  | lframe => rfl
  | lmode m => exact (congrArg State.fault (lmode_frame m s) : (lmode m s).fault = _)
  | dtick => exact (congrArg State.fault (dtick_frame s) : (dtick s).fault = _)
  | dkey => rfl

end Sys2Proof.Machine
end

