-- ==== Sys2Proof/Laws/PerInstr.lean ====
section
/-! SUPPORT. A law about each instruction as syntax: its command word carries, in bits 7:4, the number of the unit that has
the operation (spec/30_encoding.md rules R101 to R103). -/

namespace Sys2Proof.Laws

/-- The unit that has an operation: 1 scanner, 2 debouncer, 3 LED animator, 4 display animator (R101). -/
def unitOf : Instr → BitVec 4
  | .scan => 1
  | .debounce => 2
  | .evpop => 2
  | .ltick => 3
  | .lkey => 3
  | .lframe => 3
  | .lmode _ => 3
  | .dtick => 4
  | .dkey => 4

/-- The command word of `i` names `i`'s unit, and the unit exists. -/
def UnitNibble.Statement (i : Instr) : Prop :=
  unitField (encode i) = unitOf i ∧ 1 ≤ (unitOf i).toNat ∧ (unitOf i).toNat ≤ 4

theorem UnitNibble.scan : UnitNibble.Statement .scan := by unfold UnitNibble.Statement; decide
theorem UnitNibble.debounce : UnitNibble.Statement .debounce := by unfold UnitNibble.Statement; decide
theorem UnitNibble.evpop : UnitNibble.Statement .evpop := by unfold UnitNibble.Statement; decide
theorem UnitNibble.ltick : UnitNibble.Statement .ltick := by unfold UnitNibble.Statement; decide
theorem UnitNibble.lkey : UnitNibble.Statement .lkey := by unfold UnitNibble.Statement; decide
theorem UnitNibble.lframe : UnitNibble.Statement .lframe := by unfold UnitNibble.Statement; decide
theorem UnitNibble.lmode (m : Mode) : UnitNibble.Statement (.lmode m) := by
  cases m <;> (unfold UnitNibble.Statement; decide)
theorem UnitNibble.dtick : UnitNibble.Statement .dtick := by unfold UnitNibble.Statement; decide
theorem UnitNibble.dkey : UnitNibble.Statement .dkey := by unfold UnitNibble.Statement; decide

end Sys2Proof.Laws
end

