-- ==== Sys2Proof/Tests/Slice0.lean ====
section
/-! SUPPORT. Tests: ill-formed parameters are refused, command words written out bit by bit from spec/30_encoding.md
R101 and R102 decode, single steps give the vectors of spec/95_test_vectors.md, and for every statement of
Certificates/Slice0/Obligations.lean with hypotheses a state that meets them. -/

namespace Sys2Proof.Tests

open Sys2Proof Sys2Proof.Machine

/-! ### Ill-formed parameters -/

/-- Legal parameters (the vector set V on a 1 x 1 matrix). -/
abbrev good : Params := State.resetParams

theorem test_good_is_legal : good.legal = true := by decide
theorem test_no_rows_refused : { good with rows := 0 }.legal = false := by decide
theorem test_too_many_rows_refused : { good with rows := 257 }.legal = false := by decide
theorem test_most_rows_legal : { good with rows := 256 }.legal = true := by decide
theorem test_no_cols_refused : { good with cols := 0 }.legal = false := by decide
theorem test_too_many_cols_refused : { good with cols := 257 }.legal = false := by decide
theorem test_zero_threshold_refused : { good with debounceN := 0 }.legal = false := by decide
theorem test_wide_threshold_refused : { good with debounceN := 65536 }.legal = false := by decide
theorem test_no_leds_refused : { good with numLeds := 0 }.legal = false := by decide
theorem test_too_many_leds_refused : { good with numLeds := 65537 }.legal = false := by decide
theorem test_zero_kRainbow_refused : { good with kRainbow := 0 }.legal = false := by decide
theorem test_zero_kLightning_refused : { good with kLightning := 0 }.legal = false := by decide
theorem test_wide_kChase_refused : { good with kChase := 65536 }.legal = false := by decide
theorem test_zero_kChase2_refused : { good with kChase2 := 0 }.legal = false := by decide
theorem test_zero_odds_refused : { good with lightningOdds := 0 }.legal = false := by decide
theorem test_zero_timeout_refused : { good with displayTimeout := 0 }.legal = false := by decide
theorem test_wide_timeout_refused : { good with displayTimeout := 4294967296 }.legal = false := by decide

/-! ### Decoding: words written out from R101 (unit 7:4, funct 3:0) and R102 (unit, 0b01, mode) -/

theorem test_decode_scan : decode 0b00010000 = .ok .scan := rfl
theorem test_decode_debounce : decode 0b00100000 = .ok .debounce := rfl
theorem test_decode_evpop : decode 0b00100001 = .ok .evpop := rfl
theorem test_decode_ltick : decode 0b00110000 = .ok .ltick := rfl
theorem test_decode_lkey : decode 0b00110001 = .ok .lkey := rfl
theorem test_decode_lframe : decode 0b00110010 = .ok .lframe := rfl
theorem test_decode_lmode_rainbow : decode 0b00110100 = .ok (.lmode .rainbow) := rfl
theorem test_decode_lmode_lightning : decode 0b00110101 = .ok (.lmode .lightning) := rfl
theorem test_decode_lmode_chase : decode 0b00110110 = .ok (.lmode .chase) := rfl
theorem test_decode_lmode_chase2 : decode 0b00110111 = .ok (.lmode .chase2) := rfl
theorem test_decode_dtick : decode 0b01000000 = .ok .dtick := rfl
theorem test_decode_dkey : decode 0b01000001 = .ok .dkey := rfl
theorem test_decode_no_unit : decode 0x00 = .error (.noSuchUnit 0) := rfl
theorem test_decode_hole : decode 0x33 = .error (.noSuchFunct 3 3) := rfl
theorem test_decode_past_lmode : decode 0x38 = .error (.noSuchFunct 3 8) := rfl
theorem test_decode_last_word : decode 0xFF = .error (.noSuchUnit 15) := rfl
theorem test_table_word : decodeTableWord 8 0x36 = some (.lmode .chase) ∧ decodeTableWord 8 0x50 = none := ⟨rfl, rfl⟩

/-- Section 2.2: event words. -/
theorem test_event_words : eventWord true 1 2 = 0x30102 ∧ eventWord false 1 2 = 0x20102 ∧
    eventWord true 3 11 = 0x3030B ∧ eventWord false 255 255 = 0x2FFFF := by decide

/-- Section 2.2: decodings of a draw. -/
theorem test_draw_decodings : trigger good 40 = true ∧ trigger good 41 = false ∧ trigger good 0xFFFFFFFC = false ∧
    drawIndex good 6 = 2 ∧ drawIndex good 0xFFFFFFFF = 3 ∧ coin 5 = true ∧ coin 2 = false := by decide

/-! ### One step -/

/-- The state an outcome gives, `s` if it stops. -/
def after (s : State) : Host.Outcome State Fault Refusal → State
  | .next t => t
  | .fault _ => s
  | .refused _ => s

/-- The state after one operation. -/
def done (i : Instr) (s : State) : State := after s (exec i s)

/-- Set V on a 1 x 1 matrix, right after reset. -/
abbrev start : State := State.reset

/-- A 2 x 2 matrix with the given settle delay, DEBOUNCE_N = 3, the rest set V. -/
def square (settle : Nat) : Params := { good with rows := 2, cols := 2, debounceN := 3, settleUs := settle }

/-- `square 2`: too short a settle delay. -/
def leaky : Config := { toParams := square 2, legal := by decide }

/-- `square 5`: long enough. -/
def settled : Config := { toParams := square 5, legal := by decide }

/-- The environment's answers to one scan: one matrix at every instant, one choice of leaks. -/
def sees (k leaks : Grid Bool) (failAt : Option Nat) : ScanAnswers where
  keys := [k, k]
  leaks := leaks
  failAt := failAt
  leftRowOut := [.active]
  leftResid := []

/-- A block just reset, one scan's answers lined up. -/
def facing (c : Config) (a : ScanAnswers) : State := { State.resetWith c with scanScript := [a] }

/-- X3: row 0 leaks into row 1, column 0 only, when the environment lets it. -/
theorem test_scan_leak :
    (done .scan (facing leaky (sees [[true, false], [false, false]] [[true, true], [true, true]] none))).snap =
      [[true, false], [true, false]] := by decide

/-- X11: the second pin operation fails; the snapshot keeps its value. -/
theorem test_scan_pin_failure :
    let t := done .scan { facing settled (sees [] [] (some 1)) with snap := [[false, true], [false, false]] }
    t.fault = 0b001 ∧ t.snap = [[false, true], [false, false]] := by decide

/-- D5: the third consecutive differing sample. -/
theorem test_debounce_confirms :
    let t := done .debounce { facing settled default with
      snap := [[true, false], [false, false]], prevRaw := [[true, false], [false, false]], cnt := [[2, 0], [0, 0]] }
    t.evq = [0x30000] ∧ t.stable = [[true, false], [false, false]] ∧ t.cnt = [[0, 0], [0, 0]] := by decide

/-- D7: PROTO. -/
theorem test_debounce_undrained :
    let t := done .debounce { start with evq := [0x30000] }
    t.fault = 0b100 ∧ t.evq = [0x30000] := by decide

/-- E3, with the start of section 2.5 in mode Chase. -/
theorem test_evpop_press :
    let t := done .evpop { start with evq := [0x30000, 0x20000], mode := .chase, dcnt := 7 }
    t.cidx = 1 ∧ ledAt t 1 = ⟨255, 0, 0⟩ ∧ t.sprite = .tap1 ∧ t.dlast = 7 ∧ t.outDraw = [.tap1] ∧
      t.evPort = 0x30000 ∧ t.evq = [0x20000] := by decide

/-- E1, the second pop: a Release changes neither animator. -/
theorem test_evpop_release :
    let t := done .evpop { start with evq := [0x20000], mode := .chase, dcnt := 7 }
    t.cidx = 0 ∧ t.sprite = .idle ∧ t.dlast = 0 ∧ t.outEv = [0x20000] := by decide

/-- L7: a trigger on an LED that is not dim takes two draws and still fades. -/
theorem test_ltick_lightning_not_dim :
    let t := done .ltick { start with
      mode := .lightning, lcnt := 9, drawScript := [40, 6, 1]
      frame := [⟨0, 0, 0⟩, ⟨0, 0, 0⟩, ⟨118, 118, 245⟩, ⟨50, 60, 70⟩] }
    t.frame = [⟨0, 0, 0⟩, ⟨0, 0, 0⟩, ⟨108, 108, 235⟩, ⟨40, 50, 60⟩] ∧ t.drawScript = [1] ∧ t.lcnt = 0 := by decide

/-- Section 2.8: Rainbow's wrap and segment crossings. -/
theorem test_ltick_rainbow :
    let t := done .ltick { start with lcnt := 9, wpos := [255, 84, 85, 169] }
    t.frame = [⟨255, 0, 0⟩, ⟨3, 0, 252⟩, ⟨0, 0, 255⟩, ⟨0, 252, 3⟩] ∧ t.wpos = [0, 85, 86, 170] := by decide

/-- K4: index draw first, coin second. -/
theorem test_lkey_lightning :
    let t := done .lkey { start with mode := .lightning, drawScript := [6, 1] }
    t.frame = [⟨0, 0, 0⟩, ⟨0, 0, 0⟩, ⟨128, 128, 255⟩, ⟨0, 0, 0⟩] ∧ t.drawScript = [] := by decide

/-- K7: Chase wraps, shows the phase before its advance, leaves `LCNT`. -/
theorem test_lkey_chase :
    let t := done .lkey { start with mode := .chase, cidx := 3, cphase := 7, lcnt := 6 }
    t.cidx = 0 ∧ ledAt t 0 = ⟨234, 0, 21⟩ ∧ t.cphase = 8 ∧ t.lcnt = 6 := by decide

/-- Section 2.10, the first two pixels of the NUM_LEDS = 4 frame: green first. -/
theorem test_lframe :
    (done .lframe { start with frame := [⟨63, 0, 192⟩, ⟨66, 189, 0⟩] }).outLed = [[⟨0, 63, 192⟩, ⟨189, 66, 0⟩]] := by
  decide

/-- M1: seeds. -/
theorem test_lmode_rainbow : (done (.lmode .rainbow) start).wpos = [0, 64, 128, 192] := by decide

/-- M2: the frame is cleared, the wheel positions stay. -/
theorem test_lmode_chase :
    let t := done (.lmode .chase) { start with
      frame := [⟨255, 0, 0⟩, ⟨63, 0, 192⟩, ⟨0, 129, 126⟩, ⟨66, 189, 0⟩], wpos := [1, 65, 129, 193], lcnt := 4 }
    t.frame = [⟨0, 0, 0⟩, ⟨0, 0, 0⟩, ⟨0, 0, 0⟩, ⟨0, 0, 0⟩] ∧ t.wpos = [1, 65, 129, 193] ∧ t.lcnt = 0 ∧ t.mode = .chase := by
  decide

/-- T6: the comparison sees the incremented counter. -/
theorem test_dtick_timeout :
    let t := done .dtick { start with dlast := 1234, dcnt := 1633, sprite := .tap2 }
    t.dcnt = 1634 ∧ t.sprite = .idle ∧ t.outDraw = [.idle] := by decide

/-- T7, the last step: the counter has wrapped. -/
theorem test_dtick_timeout_after_wrap :
    (done .dtick { start with dlast := 0xFFFFFF00, dcnt := 0x8F, sprite := .tap1 }).sprite = .idle := by decide

/-- T1, the second and third keypress. -/
theorem test_dkey :
    (done .dkey { start with sprite := .tap1, dcnt := 1234 }).sprite = .tap2 ∧
    (done .dkey { start with sprite := .tap2, dcnt := 1234 }).sprite = .tap1 := by decide

/-- F1: an illegal word. -/
theorem test_illegal_word : (after start (step (start.withFetchWord 8 0x33))).fault = 0b010 := by decide

/-- F2: a halted block ignores a legal word. -/
theorem test_halted_ignores :
    (after start (step ({ start with fault := 0b010 }.withFetchWord 8 0x40))).dcnt = 0 := by decide

/-- F3: reset leaves the halted state. -/
theorem test_reset_clears :
    (after start (step { start with fault := 0b100, dcnt := 9, inputs := [.reset .watchdog] })) = start := by decide

/-! ### A state that meets the hypotheses of each statement

One theorem for each statement that has any, and one for each clause, at a boundary of its range where it has one. -/

theorem witness_DecodeAndEncodeAreInverse :
    (Instr.lmode .chase2).wellFormed = true ∧ decode 0x37 = .ok (.lmode .chase2) := ⟨rfl, rfl⟩

theorem witness_StepRunsTheDecodedInstruction :
    { start with inputs := [.command 0x36] }.inputs = .command 0x36 :: [] ∧ decode 0x36 = .ok (.lmode .chase) ∧
    (Instr.lmode .chase).wellFormed = true := ⟨rfl, rfl, rfl⟩

theorem witness_StepWithoutInputHoldsTheState : start.inputs = [] := rfl

theorem witness_IllegalWordRaisesIllcmd : ∀ w ∈ ([0x00, 0x33, 0xFF] : List Byte),
    start.fault = 0 ∧
    w ∉ ([0x10, 0x20, 0x21, 0x30, 0x31, 0x32, 0x34, 0x35, 0x36, 0x37, 0x40, 0x41] : List Byte) := by decide

theorem witness_HaltedBlockIgnoresEveryCommand :
    let s := { start with fault := 0b001, inputs := [.command 0x10, .command 0x33] }
    s.fault ≠ 0 ∧ s.inputs = [0x10, 0x33].map .command ++ [] := by decide

theorem witness_ResetGivesTheResetValues_between :
    ∃ src, HostInput.reset .powerOn = .reset src ∨ ∃ w, HostInput.reset .powerOn = .commandCutByReset w src :=
  ⟨.powerOn, .inl rfl⟩

theorem witness_ResetGivesTheResetValues_cutting :
    ∃ src, HostInput.commandCutByReset 0x10 .watchdog = .reset src ∨
      ∃ w, HostInput.commandCutByReset 0x10 .watchdog = .commandCutByReset w src :=
  ⟨.watchdog, .inr ⟨_, rfl⟩⟩

theorem witness_FaultBitsAreSticky :
    let s := { start with fault := 0b100, inputs := [.command 0x40] }
    NoResetNext s ∧ step s = .next { s with inputs := [] } ∧ 2 < 3 ∧ s.fault.getLsbD 2 = true :=
  ⟨fun _ _ _ => ⟨nofun, nofun⟩, rfl, by decide, rfl⟩

theorem witness_BlockHaltsOnlyOnTheThreeCauses_safe :
    start.fault = 0 ∧ { start with inputs := [.command 0x20] }.inputs = .command 0x20 :: [] ∧ CommandSafe 0x20 start :=
  ⟨rfl, rfl, rfl⟩

theorem witness_BlockHaltsOnlyOnTheThreeCauses_unsafe_word : ¬ CommandSafe 0x33 start := id

theorem witness_SettledScanRecordsTheMatrix :
    let s := facing settled (sees [[false, false], [true, false]] [] none)
    s.fault = 0 ∧ PinsWork s ∧ SettlesInTime s.cfg.toParams ∧ s.rowOut.length = s.cfg.rows ∧
    s.resid.length = s.cfg.rows :=
  ⟨rfl, fun _ h => (nomatch h), Nat.le_refl 5, rfl, rfl⟩

theorem witness_ScanSampleIsTheKeyOrALeak :
    let s := facing leaky (sees [[true, false], [false, false]] [[false, false], [true, false]] none)
    s.fault = 0 ∧ PinsWork s ∧ s.rowOut.length = s.cfg.rows ∧ s.resid.length = s.cfg.rows :=
  ⟨rfl, fun _ h => (nomatch h), rfl, rfl⟩

/-- Row 1's sample at column 0 is a leak of row 0, whose age is still short; that of column 1 is not. -/
theorem witness_ScanSampleIsTheKeyOrALeak_leaks :
    let s := facing leaky (sees [[true, false], [false, false]] [[false, false], [true, false]] none)
    (1 < s.cfg.rows ∧ 0 < s.cfg.cols ∧ keyReads (scanAnswer s) 1 1 0 = false ∧
      gridAt (scanAnswer s).leaks 1 0 = true ∧ 0 < 1 ∧ (1 - 0) * s.cfg.settleUs < s.cfg.settleMinUs ∧
      keyReads (scanAnswer s) 1 0 0 = true) ∧ gridAt (scanAnswer s).leaks 1 1 = false := by decide

/-- The ages a scan leaves: settled at exactly the settling time, an age below it. -/
theorem witness_ScanSampleIsTheKeyOrALeak_ages :
    settled.settleMinUs ≤ (settled.rows - 1) * settled.settleUs ∧
    ¬ leaky.settleMinUs ≤ (leaky.rows - 0) * leaky.settleUs := by decide

/-- The first and the last pin operation of a scan. -/
theorem witness_PinFailureRaisesIoerr : ∀ k ∈ [0, 7],
    let s := facing settled (sees [] [] (some k))
    s.fault = 0 ∧ (scanAnswer s).failAt = some k ∧ k < s.cfg.rows * (s.cfg.cols + 2) := by decide

/-- A state in which key (0, 0) is one sample short of DEBOUNCE_N, key (0, 1) two short, key (1, 0) at rest. -/
def counting : State := { State.resetWith settled with
  snap := [[true, true], [false, true]]
  prevRaw := [[true, true], [false, false]]
  cnt := [[2, 1], [0, 0]] }

theorem witness_DebounceRunsTheComparatorOnEveryKey : counting.fault = 0 ∧ counting.evq = [] := by decide

/-- A key at its stable state, one confirmed at exactly DEBOUNCE_N, one a sample short of it. -/
theorem witness_DebounceRunsTheComparatorOnEveryKey_clauses :
    (1 < counting.cfg.rows ∧ 0 < counting.cfg.cols ∧ gridAt counting.snap 1 0 = gridAt counting.stable 1 0) ∧
    (gridAt counting.snap 0 0 ≠ gridAt counting.stable 0 0 ∧
      counting.cfg.debounceN ≤ (gridAt counting.cnt 0 0 + 1).toNat) ∧
    (gridAt counting.snap 0 1 ≠ gridAt counting.stable 0 1 ∧
      (gridAt counting.cnt 0 1 + 1).toNat < counting.cfg.debounceN) := by decide

theorem witness_DebounceQueuesTheConfirmedChangesInOrder : counting.fault = 0 ∧ counting.evq = [] := by decide

theorem witness_UndrainedQueueRaisesProto : start.fault = 0 ∧ { start with evq := [0x30000] }.evq ≠ [] := by decide

/-- At both ends of the range of `CNT`, with the widest threshold. -/
theorem witness_ComparatorNeedsNoPreviousRaw :
    65535 ≤ 65535 ∧ ((0 : Half).toNat < 65535 ∧ ((0 : Half) = 0 ↔ false = false)) ∧
    ((65534 : Half).toNat < 65535 ∧ ((65534 : Half) = 0 ↔ true = false)) := by decide

/-- The inputs and the answers lined up are no part of the invariant. -/
theorem inv_lined_up {s : State} (h : Inv s) (inputs : List HostInput) (answers : List ScanAnswers) :
    Inv { s with inputs := inputs, scanScript := answers } := by
  obtain ⟨⟨a, b, c, d, e, f, g, i⟩, ⟨j, k, l, m⟩, ⟨n, o, p⟩, q, r, t, u⟩ := h
  exact ⟨⟨a, b, c, d, e, f, g, i⟩, ⟨j, k, l, m⟩, ⟨n, o, p⟩, q, r, t, u⟩

/-- `counting` is a good state: keys (0, 0) and (0, 1) are mid-count, the others at rest. -/
theorem counting_inv : Inv counting where
  shapes := ⟨by decide, by decide, by decide, by decide, by decide, by decide, by decide, by decide⟩
  counters := ⟨by decide +kernel, by decide +kernel, by decide, by decide⟩
  queue := ⟨Nat.zero_le _, List.Pairwise.nil, fun _ h => nomatch h⟩
  rowsIdle := by decide +kernel
  ages := fun us h => by simp [counting, State.resetWith] at h
  oneFault := .inl rfl
  port := .inl rfl

/-- `counting` with answers for `n` scans lined up, in each of which key (1, 1) reads pressed. -/
def facingRun (n : Nat) : State :=
  { counting with inputs := [], scanScript := List.replicate n (sees [[false, false], [false, true]] [] none) }

/-- One scan short of DEBOUNCE_N, and exactly DEBOUNCE_N. -/
theorem witness_ChangeIsConfirmedAtTheNthDifferingScan : ∀ n ∈ [2, 3],
    Inv (facingRun n) ∧ (facingRun n).fault = 0 ∧ (facingRun n).evq = [] ∧
    SettlesInTime (facingRun n).cfg.toParams ∧ 1 < (facingRun n).cfg.rows ∧ 1 < (facingRun n).cfg.cols ∧
    (∀ a ∈ (facingRun n).scanScript, a.failAt = none ∧ keyReads a 1 1 1 = true) ∧
    gridAt (facingRun n).cnt 1 1 = 0 ∧ true ≠ gridAt (facingRun n).stable 1 1 := by
  intro n _
  refine ⟨inv_lined_up counting_inv _ _, rfl, rfl, Nat.le_refl 5, Nat.le_refl 2, Nat.le_refl 2, ?_, rfl, fun h => nomatch h⟩
  intro a h
  rw [List.eq_of_mem_replicate h]
  exact ⟨rfl, rfl⟩

theorem witness_ChangeIsConfirmedAtTheNthDifferingScan_clauses :
    (facingRun 2).scanScript.length < (facingRun 2).cfg.debounceN ∧
    (facingRun 3).cfg.debounceN ≤ (facingRun 3).scanScript.length := by decide

theorem witness_PopOfEmptyQueuePresentsNone : start.fault = 0 ∧ start.evq = [] := by decide

theorem witness_PopStrobesTheAnimatorsOnAPress :
    let s := { start with evq := [0x30000, 0x20000] }
    s.fault = 0 ∧ s.evq = 0x30000 :: [0x20000] ∧ (0x30000 : EventWord).getLsbD 16 = true ∧
    (0x20000 : EventWord).getLsbD 16 = false := by decide

theorem witness_EvdrainEmptiesTheQueue :
    let s := { start with evq := [0x30000] }
    s.fault = 0 ∧ s.evq.length ≤ s.cfg.rows * s.cfg.cols ∧ ∃ e ∈ s.evq, e.getLsbD 16 = true :=
  ⟨rfl, Nat.le_refl 1, _, .head _, rfl⟩

theorem witness_WheelTracesTheHueCycle :
    (84 : Byte).toNat < 85 ∧ (85 ≤ (85 : Byte).toNat ∧ (169 : Byte).toNat < 170) ∧ 170 ≤ (170 : Byte).toNat := by decide

theorem witness_FadeSaturatesAtBlack : (1 : Byte) ≠ 0 ∧ 255 ≤ 255 ∧ 3 < start.frame.length := by decide

theorem witness_RainbowModeSeedsThePositions : start.fault = 0 ∧ 3 < start.cfg.numLeds := by decide

theorem witness_OtherModesClearTheFrame : start.fault = 0 ∧ Mode.chase2 ≠ .rainbow := by decide

/-- A block in mode `m` whose next `LTICK` updates. -/
def due (m : Mode) : State := { start with mode := m, lcnt := if m = .chase2 then 99 else 9 }

theorem witness_TickShortOfTheDivisorOnlyCounts :
    let s := { start with lcnt := 8 }
    s.fault = 0 ∧ s.lcnt.toNat + 1 < divisor s.cfg.toParams s.mode := by decide

theorem witness_RainbowUpdateShowsThenAdvances :
    let s := due .rainbow
    s.fault = 0 ∧ s.mode = .rainbow ∧ s.lcnt.toNat + 1 = divisor s.cfg.toParams s.mode ∧
    s.wpos.length = s.cfg.numLeds := by decide

theorem witness_LightningUpdateFlashesADimLedThenFades :
    let s := due .lightning
    s.fault = 0 ∧ s.mode = .lightning ∧ s.lcnt.toNat + 1 = divisor s.cfg.toParams s.mode ∧
    s.frame.length = s.cfg.numLeds := by decide

/-- No trigger; a trigger on an LED at exactly DIM_THRESH; a trigger on one just below. -/
theorem witness_LightningUpdateFlashesADimLedThenFades_clauses :
    let s := { due .lightning with
      drawScript := [40, 6, 1], frame := [⟨0, 0, 0⟩, ⟨0, 0, 0⟩, ⟨100, 0, 0⟩, ⟨99, 0, 0⟩] }
    (drawValue { s with drawScript := [41] }).toNat % s.cfg.lightningOdds ≠ 0 ∧
    ((drawValue s).toNat % s.cfg.lightningOdds = 0 ∧ (drawValue (afterDraw s)).toNat % s.cfg.numLeds = 2 ∧
      s.cfg.dimThresh.toNat ≤ (ledAt s 2).r.toNat) ∧
    (ledAt s 3).r.toNat < s.cfg.dimThresh.toNat := by decide

theorem witness_ChaseUpdateLightsTheNextLedThenFades :
    let s := due .chase
    s.fault = 0 ∧ s.mode = .chase ∧ s.lcnt.toNat + 1 = divisor s.cfg.toParams s.mode ∧
    s.frame.length = s.cfg.numLeds := by decide

theorem witness_Chase2UpdateLightsTwoLedsThenFades :
    let s := due .chase2
    s.fault = 0 ∧ s.mode = .chase2 ∧ s.lcnt.toNat + 1 = divisor s.cfg.toParams s.mode ∧
    s.frame.length = s.cfg.numLeds := by decide

/-- One LED, and a timeout of three ticks. -/
def tiny : Config := { toParams := { good with numLeds := 1, displayTimeout := 3 }, legal := by decide }

theorem witness_Chase2IndicesAreDistinct :
    (3 < State.resetConfig.numLeds ∧ 1 < State.resetConfig.numLeds) ∧ (0 < tiny.numLeds ∧ tiny.numLeds = 1) := by decide

/-- One `LTICK` short of the first update, and the one that updates; in a mode just selected and in another. -/
theorem witness_UpdatesRunAtEveryKthTick :
    (start.fault = 0 ∧ start.lcnt = 0 ∧ 9 / divisor start.cfg.toParams start.mode = 0 ∧
      10 / divisor start.cfg.toParams start.mode = 1) ∧
    9 < divisor start.cfg.toParams .chase ∧ ¬ 10 < divisor start.cfg.toParams .rainbow ∧ 3 < start.cfg.numLeds := by decide

/-- The state after a list of operations. -/
def doneAll (is : List Instr) (s : State) : State := after s (execAll is s)

theorem execAll_doneAll (is : List Instr) (s : State) : execAll is s = .next (doneAll is s) := by
  obtain ⟨t, h⟩ := execAll_next is s
  rw [doneAll, h, after]

/-- `DTICK`s, keypresses and a frame among `LTICK`s, every third of which updates. -/
def mixed (n : Nat) : List Instr := .dtick :: .lkey :: List.replicate n .ltick ++ [.dkey, .lframe]

/-- K = 3 in mode Chase. -/
def third : Config := { toParams := { good with kChase := 3 }, legal := by decide }

/-- The next `LTICK` is the third, and the fourth. -/
theorem witness_TickUpdatesExactlyAtMultiplesOfTheDivisor :
    let s := { State.resetWith third with mode := .chase }
    s.lcnt = 0 ∧ (∀ m, .lmode m ∉ mixed 2) ∧ (∀ m, .lmode m ∉ mixed 3) ∧
    (execAll (mixed 2) s = .next (doneAll (mixed 2) s) ∧ (doneAll (mixed 2) s).fault = 0 ∧
      ((mixed 2).count .ltick + 1) % divisor s.cfg.toParams s.mode = 0) ∧
    (execAll (mixed 3) s = .next (doneAll (mixed 3) s) ∧ (doneAll (mixed 3) s).fault = 0 ∧
      ((mixed 3).count .ltick + 1) % divisor s.cfg.toParams s.mode ≠ 0) :=
  ⟨rfl, fun m => by cases m <;> decide, fun m => by cases m <;> decide, ⟨execAll_doneAll _ _, by decide +kernel, rfl⟩, ⟨execAll_doneAll _ _, by decide +kernel, by decide⟩⟩

theorem witness_LightningKeypressFlashesAtFullValue :
    let s := { start with mode := .lightning }
    s.fault = 0 ∧ s.mode = .lightning ∧ s.frame.length = s.cfg.numLeds := by decide

theorem witness_ChaseKeypressLightsTheNextLed :
    let s := { start with mode := .chase }
    s.fault = 0 ∧ s.mode = .chase ∧ s.frame.length = s.cfg.numLeds := by decide

theorem witness_RainbowAndChase2IgnoreKeypresses :
    start.fault = 0 ∧ start.mode = .rainbow ∧ { start with mode := .chase2 }.mode = .chase2 := by decide

theorem witness_KeypressNeverTouchesTheTickCounter :
    let s := { start with mode := .chase, lcnt := 6 }
    exec .lkey s = .next (done .lkey s) := rfl

theorem witness_TwoChaseKeypressesAdvanceByTwo :
    let s := { start with mode := .chase, cidx := 3 }
    s.fault = 0 ∧ s.mode = .chase ∧ s.frame.length = s.cfg.numLeds ∧ 1 < s.cfg.numLeds := by decide

theorem witness_FrameIsEmittedGreenRedBlue : start.fault = 0 := rfl

theorem witness_KeypressShowsTheNextTapSprite :
    start.fault = 0 ∧ Sprite.tap1 = (if start.sprite = .tap1 then .tap2 else .tap1) := by decide

/-- At the timeout, one tick before it, and where the counter wraps. -/
theorem witness_DisplayTickComparesTheIncrementedCounter :
    (let s := { start with dcnt := 399 }
     s.fault = 0 ∧ 400 = (s.dcnt.toNat + 1) % 2 ^ 32 ∧ (400 + (2 ^ 32 - s.dlast.toNat)) % 2 ^ 32 = s.cfg.displayTimeout) ∧
    (let s := { start with dcnt := 398 }
     399 = (s.dcnt.toNat + 1) % 2 ^ 32 ∧ (399 + (2 ^ 32 - s.dlast.toNat)) % 2 ^ 32 ≠ s.cfg.displayTimeout) ∧
    (let s := { start with dcnt := 0xFFFFFFFF, dlast := 0xFFFFFE70 }
     0 = (s.dcnt.toNat + 1) % 2 ^ 32 ∧ (0 + (2 ^ 32 - s.dlast.toNat)) % 2 ^ 32 = s.cfg.displayTimeout) := by decide

/-- A block whose keys are all up, with one scan's answers and a Press and a Release in the queue; its timeout is three. -/
def tapped : State := { State.resetWith tiny with evq := [0x30000, 0x20000], scanScript := [sees [[false]] [] none] }

/-- After the strobe, a Release, a scan and two `DTICK`s: the timeout is one `DTICK` away. -/
def beforeTimeout : List Instr := [.evpop, .dtick, .scan, .debounce, .ltick, .dtick, .evpop, .lframe]

/-- The strobe hands over the Press. -/
theorem tapped_first : (done .evpop tapped).outEv = [0x30000] := by decide +kernel

/-- What the operations after it leave, one `DTICK` before the timeout and at it. -/
theorem tapped_last : ∀ is ∈ [beforeTimeout, beforeTimeout ++ [.dtick]],
    (doneAll is (done .evpop tapped)).fault = 0 ∧ (doneAll is (done .evpop tapped)).outEv = [0x30000, 0x20000] ∧
    .dkey ∉ is ∧ is.count .dtick ≤ 3 := by decide +kernel

theorem witness_IdleReturnsExactlyAtTheTimeout : ∀ is ∈ [beforeTimeout, beforeTimeout ++ [.dtick]],
    tapped.fault = 0 ∧ (∃ e ∈ tapped.evq.head?, e.getLsbD 16 = true) ∧
    exec .evpop tapped = .next (done .evpop tapped) ∧ .dkey ∉ is ∧ is.count .dtick ≤ tapped.cfg.displayTimeout ∧
    execAll is (done .evpop tapped) = .next (doneAll is (done .evpop tapped)) ∧
    (doneAll is (done .evpop tapped)).fault = 0 ∧
    ∀ e ∈ (doneAll is (done .evpop tapped)).outEv.drop (done .evpop tapped).outEv.length, e.getLsbD 16 = false := by
  intro is h
  obtain ⟨running, last, keys, ticks⟩ := tapped_last is h
  refine ⟨rfl, ⟨_, rfl, rfl⟩, rfl, keys, ticks, execAll_doneAll _ _, running, ?_⟩
  rw [last, tapped_first]
  simp

/-- After a `DKEY`: LED operations among two `DTICK`s and among three. -/
theorem witness_IdleReturnsExactlyAtTheTimeout_led :
    ∀ is ∈ ([[.dtick, .ltick, .dtick], [.dtick, .lkey, .dtick, .dtick, .lframe]] : List (List Instr)),
      (State.resetWith tiny).fault = 0 ∧
      exec .dkey (State.resetWith tiny) = .next (done .dkey (State.resetWith tiny)) ∧ .dkey ∉ is ∧
      (∀ i ∈ is, i = .dtick ∨ isLedOp i = true) ∧ is.count .dtick ≤ (State.resetWith tiny).cfg.displayTimeout := by
  intro is h
  simp only [List.mem_cons, List.not_mem_nil, or_false] at h
  rcases h with rfl | rfl <;> exact ⟨rfl, rfl, by decide, by decide, by decide⟩

/-- The last tick before the timeout. -/
theorem witness_ThresholdComparatorShowsTheSameSprite :
    let s := { start with sprite := .tap1, dcnt := 399, inputs := [.command 0x40] }
    SpriteAwaitsTimeout s ∧ step s = .next (done .dtick { s with inputs := [] }) ∧ s.fault = 0 ∧
    exec .dtick s = .next (done .dtick s) :=
  ⟨fun _ => by decide, rfl, rfl, rfl⟩

theorem witness_StepKeepsTheInvariant :
    let s := { counting with inputs := [.command 0x20], scanScript := [] }
    Inv s ∧ step s = .next (done .debounce { s with inputs := [] }) :=
  ⟨inv_lined_up counting_inv _ _, rfl⟩

theorem witness_ParametersNeverChange :
    let s := { start with inputs := [.command 0x36] }
    step s = .next (done (.lmode .chase) start) := rfl

theorem witness_TracesOnlyGrow :
    let s := { start with inputs := [.command 0x32] }
    NoResetNext s ∧ step s = .next (done .lframe start) :=
  ⟨fun _ _ _ => ⟨nofun, nofun⟩, rfl⟩

theorem witness_OperationsWriteOnlyTheirOwnState : ∀ i : Instr, exec i start = .next (done i start) := by
  intro i
  cases i <;> rfl

/-- Two blocks with different frames and sprites and the same key side. -/
theorem witness_KeySideNeverDependsOnTheAnimators :
    let s := { counting with frame := [⟨9, 9, 9⟩], sprite := .tap2 }
    keySide counting = keySide s ∧ exec .debounce counting = .next (done .debounce counting) ∧
    exec .debounce s = .next (done .debounce s) := ⟨rfl, rfl, rfl⟩

/-- Two blocks whose queues start with a Press each, of different keys, with the same LED and display sides. -/
theorem witness_AnimatorsSeeOnlyTheKeypressStrobe :
    let s₁ := { counting with evq := [0x30000] }
    let s₂ := { counting with evq := [0x30101, 0x20100], snap := [] }
    s₁.fault = 0 ∧ s₂.fault = 0 ∧
    (Instr.evpop = .evpop →
      (s₁.evq.head?.map fun e => e.getLsbD 16) = (s₂.evq.head?.map fun e => e.getLsbD 16)) ∧
    exec .evpop s₁ = .next (done .evpop s₁) ∧ exec .evpop s₂ = .next (done .evpop s₂) ∧
    ledSide s₁ = ledSide s₂ ∧ displaySide s₁ = displaySide s₂ := ⟨rfl, rfl, fun _ => rfl, rfl, rfl, rfl, rfl⟩

/-- For an LED and a display operation: a Press waits in one block's queue and none in the other's. -/
theorem witness_AnimatorsSeeOnlyTheKeypressStrobe_queue : ∀ i ∈ [Instr.ltick, .dtick],
    let s₁ := { counting with evq := [0x30000] }
    s₁.fault = 0 ∧ counting.fault = 0 ∧
    (i = .evpop → (s₁.evq.head?.map fun e => e.getLsbD 16) = (counting.evq.head?.map fun e => e.getLsbD 16)) ∧
    exec i s₁ = .next (done i s₁) ∧ exec i counting = .next (done i counting) ∧
    ledSide s₁ = ledSide counting ∧ displaySide s₁ = displaySide counting := by
  intro i h
  simp only [List.mem_cons, List.not_mem_nil, or_false] at h
  rcases h with rfl | rfl <;> exact ⟨rfl, rfl, nofun, rfl, rfl, rfl, rfl⟩

theorem witness_LedAndDisplayOperationsCommute : isLedOp .lkey = true ∧ isDisplayOp .dkey = true := ⟨rfl, rfl⟩

theorem witness_TickCompletesForADutifulHost :
    Inv (facingRun 1) ∧ (facingRun 1).fault = 0 ∧ (facingRun 1).evq = [] ∧ PinsWork (facingRun 1) :=
  ⟨inv_lined_up counting_inv _ _, rfl, rfl, fun _ h => (nomatch h)⟩

theorem witness_FirmwareResetTickEndsInTheResetState :
    let s := { start with inputs := tickInputs start.cfg.toParams (some .firmwareReset) ++ [HostInput.command 0x40] }
    s.inputs = tickInputs s.cfg.toParams (some .firmwareReset) ++ [HostInput.command 0x40] := rfl

end Sys2Proof.Tests
end

section
/-! Noninterference between the units (spec/00_scope.md rule R6). An operation stays within a view of the state when
what it leaves in the view depends on the view alone. This is proved part by part of an operation's definition, for the
key side, the LED side and the display side. -/

namespace Sys2Proof.Machine

/-! ### Operations that stay within a view -/

/-- What `f` leaves in the view depends on the view alone. -/
def Within {α : Type} (view : State → α) (f : State → State) : Prop :=
  ∀ ⦃s t : State⦄, view s = view t → view (f s) = view (f t)

section Calculus

variable {α β : Type} {view : State → α} {f g : State → State}

/-- An observation that comes out the same on a state rebuilt from the view depends on the view alone. -/
theorem factorsThrough_of_alone {obs : State → β} (alone : α → State) (h : ∀ s, obs s = obs (alone (view s))) :
    Function.FactorsThrough obs view := by
  intro s t hst
  rw [h s, h t, hst]

theorem within_of_alone (alone : α → State) (h : ∀ s, view (f s) = view (f (alone (view s)))) : Within view f :=
  fun _ _ hst => factorsThrough_of_alone (obs := fun s => view (f s)) alone h hst

theorem within_of_keeps (h : ∀ s, view (f s) = view s) : Within view f :=
  fun s t hst => (h s).trans (hst.trans (h t).symm)

/-- An operation may be judged by the equation that says what it leaves. -/
theorem within_of_eq (heq : ∀ s, f s = g s) (hg : Within view g) : Within view f := by
  rwa [funext heq]

/-- An operation whose frame law lists no field of the view. -/
theorem within_of_frame (hframe : ∀ s, f s = g s) (hg : ∀ s, view (g s) = view s) : Within view f :=
  within_of_eq hframe (within_of_keeps hg)

theorem Within.comp (hf : Within view f) (hg : Within view g) : Within view fun s => f (g s) :=
  fun _ _ hst => hf (hg hst)

theorem Within.ite {c : State → Bool} (hc : Function.FactorsThrough c view) (hf : Within view f)
    (hg : Within view g) : Within view fun s => if c s then f s else g s := by
  intro s t hst
  have hcst : c s = c t := hc hst
  simp only [hcst]
  split
  · exact hf hst
  · exact hg hst

end Calculus

/-! ### A state rebuilt from a view, which it shows again -/

/-- A block with this key side and everything else as after reset. -/
def KeySide.alone (v : KeySide) : State :=
  { State.resetWith v.cfg with
    fault := v.fault, rowOut := v.rowOut, resid := v.resid, snap := v.snap, stable := v.stable
    prevRaw := v.prevRaw, cnt := v.cnt, evq := v.evq, evPort := v.evPort, outEv := v.outEv
    scanScript := v.scanScript, freeScans := v.freeScans }

/-- A block with this LED side and everything else as after reset. -/
def LedSide.alone (v : LedSide) : State :=
  { State.resetWith v.cfg with
    frame := v.frame, wpos := v.wpos, lcnt := v.lcnt, cidx := v.cidx, cphase := v.cphase, mode := v.mode
    outLed := v.outLed, drawScript := v.drawScript, freeDraws := v.freeDraws }

/-- A block with this display side and everything else as after reset. -/
def DisplaySide.alone (v : DisplaySide) : State :=
  { State.resetWith v.cfg with
    sprite := v.sprite, dcnt := v.dcnt, dlast := v.dlast, outDraw := v.outDraw }

theorem keySide_alone (v : KeySide) : keySide v.alone = v := rfl
theorem ledSide_alone (v : LedSide) : ledSide v.alone = v := rfl
theorem displaySide_alone (v : DisplaySide) : displaySide v.alone = v := rfl

/-! ### The key side -/

theorem cfg_of_keySide {s t : State} (h : keySide s = keySide t) : s.cfg = t.cfg :=
  congrArg KeySide.cfg h

theorem rowDrive_within_keySide (r : Nat) (level : RowLevel) : Within keySide (rowDrive r level) :=
  within_of_alone KeySide.alone fun _ => rfl

theorem delayUs_within_keySide (us : Nat) : Within keySide (delayUs us) :=
  within_of_alone KeySide.alone fun _ => rfl

/-- A sample is a matter of the answers, the row count and the rows' ages (R134, R138). -/
theorem colSample_of_keySide (a : ScanAnswers) (r c : Nat) {s t : State} (h : keySide s = keySide t) :
    colSample a r c s = colSample a r c t :=
  factorsThrough_of_alone KeySide.alone (fun _ => rfl) h

theorem scanRow_within_keySide (a : ScanAnswers) (r : Nat) {s t : State} (h : keySide s = keySide t) :
    (scanRow a r s).1 = (scanRow a r t).1 ∧ keySide (scanRow a r s).2 = keySide (scanRow a r t).2 := by
  have hdriven : keySide (rowDrive r .active s) = keySide (rowDrive r .active t) :=
    rowDrive_within_keySide r .active h
  simp only [scanRow, cfg_of_keySide h]
  constructor
  · exact List.map_congr_left fun c _ => colSample_of_keySide a r c hdriven
  · exact delayUs_within_keySide _ (rowDrive_within_keySide r .inactive hdriven)

/-- The loop over the rows reads the key side only: both the samples and the state it leaves (R130). -/
theorem scanRows_within_keySide (a : ScanAnswers) (rows : List Nat) {s t : State} (h : keySide s = keySide t) :
    (scanRows a rows s).1 = (scanRows a rows t).1 ∧
    keySide (scanRows a rows s).2 = keySide (scanRows a rows t).2 := by
  induction rows generalizing s t with
  | nil => exact ⟨rfl, h⟩
  | cons r rest ih =>
    obtain ⟨hrow, hnext⟩ := scanRow_within_keySide a r h
    obtain ⟨hgrid, hend⟩ := ih hnext
    exact ⟨congrArg₂ List.cons hrow hgrid, hend⟩

theorem scanCompletes_within_keySide (a : ScanAnswers) : Within keySide (scanCompletes a) := by
  intro s t h
  obtain ⟨hgrid, hend⟩ := scanRows_within_keySide a (List.range t.cfg.rows) h
  simp only [scanCompletes, cfg_of_keySide h, hgrid]
  exact congrArg (fun v : KeySide => { v with snap := (scanRows a (List.range t.cfg.rows) t).1 }) hend

theorem scan_within_keySide : Within keySide scan := by
  intro s t h
  have hanswer : scanAnswer s = scanAnswer t := factorsThrough_of_alone KeySide.alone (fun _ => rfl) h
  have htaken : keySide (afterScanAnswer s) = keySide (afterScanAnswer t) :=
    within_of_alone (f := afterScanAnswer) KeySide.alone (fun _ => rfl) h
  have hbegun := delayUs_within_keySide t.cfg.settleMinUs htaken
  have hfails (a : ScanAnswers) : Within keySide (scanFails a) := within_of_alone KeySide.alone fun _ => rfl
  simp only [scan, hanswer, cfg_of_keySide h]
  split
  · exact hfails _ hbegun
  · exact scanCompletes_within_keySide _ hbegun

theorem debounce_within_keySide : Within keySide debounce :=
  .ite (c := fun s => s.evq.isEmpty) (factorsThrough_of_alone KeySide.alone fun _ => rfl)
    (within_of_alone KeySide.alone fun _ => rfl) (within_of_alone KeySide.alone fun _ => rfl)

/-- The strobe leaves no mark on the key side: `EVPOP` moves the head of the queue to the port and the trace (R160). -/
theorem keySide_evpop (s : State) :
    keySide (evpop s) = { keySide s with
      evq := s.evq.tail, evPort := s.evq.headD eventNone, outEv := s.outEv ++ s.evq.take 1 } :=
  congrArg keySide (evpop_frame s)

theorem evpop_within_keySide : Within keySide evpop :=
  within_of_alone KeySide.alone fun s => by rw [keySide_evpop, keySide_evpop]; rfl

/-- Every operation stays within the key side; those of the animators leave it alone. -/
theorem effect_within_keySide (i : Instr) : Within keySide (effect i) := by
  cases i with
  | scan => exact scan_within_keySide
  | debounce => exact debounce_within_keySide
  | evpop => exact evpop_within_keySide
  | ltick => exact within_of_frame ltick_frame fun _ => rfl
  | lkey => exact within_of_frame ledKeypress_frame fun _ => rfl
  | lframe => exact within_of_keeps fun _ => rfl
  | lmode m => exact within_of_frame (lmode_frame m) fun _ => rfl
  | dtick => exact within_of_frame dtick_frame fun _ => rfl
  | dkey => exact within_of_keeps fun _ => rfl

/-- Settles O48: whether the block is halted is read from the key side, and so is all that an operation does to it. -/
theorem keySideNeverDependsOnTheAnimators : Obligations.KeySideNeverDependsOnTheAnimators := by
  intro i s₁ s₂ t₁ t₂ hside h₁ h₂
  have hrun : Within keySide fun s => if halted s then s else effect i s :=
    .ite (factorsThrough_of_alone KeySide.alone fun _ => rfl) (within_of_keeps fun _ => rfl) (effect_within_keySide i)
  rw [exec_eq_perform] at h₁ h₂
  injection h₁ with h₁
  injection h₂ with h₂
  subst h₁ h₂
  exact hrun hside

/-! ### The LED side -/

theorem cfg_of_ledSide {s t : State} (h : ledSide s = ledSide t) : s.cfg = t.cfg :=
  congrArg LedSide.cfg h

theorem mode_of_ledSide {s t : State} (h : ledSide s = ledSide t) : s.mode = t.mode :=
  congrArg LedSide.mode h

theorem fadeAll_within_ledSide (d : Byte) : Within ledSide (fadeAll d) :=
  within_of_alone LedSide.alone fun _ => rfl

/-- Lightning's flash: the draws, the dim test and the colours are the LED side's own (R192). -/
theorem lightningFlash_within_ledSide : Within ledSide lightningFlash :=
  .ite (c := fun s => dim s.cfg.toParams (ledAt (afterDraw s) (drawIndex s.cfg.toParams (drawValue s))))
    (factorsThrough_of_alone LedSide.alone fun _ => rfl) (within_of_alone LedSide.alone fun _ => rfl)
    (within_of_alone LedSide.alone fun _ => rfl)

theorem updateLightning_within_ledSide : Within ledSide updateLightning := by
  intro s t h
  have hvalue : drawValue s = drawValue t := factorsThrough_of_alone LedSide.alone (fun _ => rfl) h
  have hdraw : ledSide (afterDraw s) = ledSide (afterDraw t) :=
    within_of_alone (f := afterDraw) LedSide.alone (fun _ => rfl) h
  simp only [updateLightning, hvalue, cfg_of_ledSide h]
  split
  · exact fadeAll_within_ledSide _ (lightningFlash_within_ledSide hdraw)
  · exact fadeAll_within_ledSide _ hdraw

theorem chaseStep_within_ledSide : Within ledSide chaseStep :=
  within_of_eq chaseStep_eq (within_of_alone LedSide.alone fun _ => rfl)

theorem updateChase_within_ledSide : Within ledSide updateChase := by
  intro s t h
  simp only [updateChase, cfg_of_ledSide h]
  exact fadeAll_within_ledSide _ (chaseStep_within_ledSide h)

theorem updateChase2_within_ledSide : Within ledSide updateChase2 :=
  within_of_eq updateChase2_eq (within_of_alone LedSide.alone fun _ => rfl)

theorem updateMode_within_ledSide : Within ledSide updateMode := by
  intro s t h
  simp only [updateMode, mode_of_ledSide h]
  cases t.mode with
  | rainbow => exact within_of_alone (f := updateRainbow) LedSide.alone (fun _ => rfl) h
  | lightning => exact updateLightning_within_ledSide h
  | chase => exact updateChase_within_ledSide h
  | chase2 => exact updateChase2_within_ledSide h

theorem ltick_within_ledSide : Within ledSide ltick := by
  have hcount : Within ledSide fun s => { s with lcnt := s.lcnt + 1 } := within_of_alone LedSide.alone fun _ => rfl
  have hclear : Within ledSide fun s => { s with lcnt := 0 } := within_of_alone LedSide.alone fun _ => rfl
  exact .ite (c := fun s => updateDue { s with lcnt := s.lcnt + 1 })
    (factorsThrough_of_alone LedSide.alone fun _ => rfl) (updateMode_within_ledSide.comp hclear) hcount

theorem ledKeypress_within_ledSide : Within ledSide ledKeypress := by
  intro s t h
  simp only [ledKeypress, mode_of_ledSide h]
  cases t.mode with
  | rainbow => exact h
  | lightning => exact within_of_alone (f := keypressLightning) LedSide.alone (fun _ => rfl) h
  | chase => exact chaseStep_within_ledSide h
  | chase2 => exact h

theorem lmode_within_ledSide (m : Mode) : Within ledSide (lmode m) := by
  cases m <;> exact within_of_alone LedSide.alone fun _ => rfl

/-- Every operation but `EVPOP` stays within the LED side; those of the other units leave it alone. -/
theorem effect_within_ledSide {i : Instr} (hi : i ≠ .evpop) : Within ledSide (effect i) := by
  cases i with
  | scan => exact within_of_frame scan_frame fun _ => rfl
  | debounce => exact within_of_frame debounce_frame fun _ => rfl
  | evpop => exact absurd rfl hi
  | ltick => exact ltick_within_ledSide
  | lkey => exact ledKeypress_within_ledSide
  | lframe => exact within_of_alone LedSide.alone fun _ => rfl
  | lmode m => exact lmode_within_ledSide m
  | dtick => exact within_of_frame dtick_frame fun _ => rfl
  | dkey => exact within_of_keeps fun _ => rfl

/-! ### The display side -/

theorem dtick_within_displaySide : Within displaySide dtick :=
  .ite (c := fun s => timedOut { s with dcnt := s.dcnt + 1 })
    (factorsThrough_of_alone DisplaySide.alone fun _ => rfl) (within_of_alone DisplaySide.alone fun _ => rfl)
    (within_of_alone DisplaySide.alone fun _ => rfl)

theorem displayKeypress_within_displaySide : Within displaySide displayKeypress :=
  within_of_alone DisplaySide.alone fun _ => rfl

/-- The LED animator's keypress reaction is not seen by the display animator. -/
theorem displaySide_ledKeypress (s : State) : displaySide (ledKeypress s) = displaySide s := by
  rw [ledKeypress_frame]; rfl

/-- Every operation but `EVPOP` stays within the display side; those of the other units leave it alone. -/
theorem effect_within_displaySide {i : Instr} (hi : i ≠ .evpop) : Within displaySide (effect i) := by
  cases i with
  | scan => exact within_of_frame scan_frame fun _ => rfl
  | debounce => exact within_of_frame debounce_frame fun _ => rfl
  | evpop => exact absurd rfl hi
  | ltick => exact within_of_frame ltick_frame fun _ => rfl
  | lkey => exact within_of_keeps displaySide_ledKeypress
  | lframe => exact within_of_keeps fun _ => rfl
  | lmode m => exact within_of_frame (lmode_frame m) fun _ => rfl
  | dtick => exact dtick_within_displaySide
  | dkey => exact displayKeypress_within_displaySide

/-! ### The strobe of `EVPOP` (R161) -/

/-- The kind bit of the queue's head: `some true` for a Press, `none` for an empty queue (R108). -/
def headKind (s : State) : Option Bool := s.evq.head?.map eventIsPress

/-- On the animators' sides `EVPOP` is the keypress of each when the head is a Press, and nothing otherwise. -/
theorem evpop_animatorSides (s : State) :
    ledSide (evpop s) = ledSide (if headKind s = some true then ledKeypress s else s) ∧
    displaySide (evpop s) = displaySide (if headKind s = some true then displayKeypress s else s) := by
  cases hq : s.evq with
  | nil =>
    have hk : headKind s ≠ some true := by simp [headKind, hq]
    rw [if_neg hk, if_neg hk, evpop, hq]
    exact ⟨rfl, rfl⟩
  | cons e rest =>
    have hhead : headKind s = some (eventIsPress e) := by simp [headKind, hq]
    cases hp : eventIsPress e with
    | false =>
      have hk : headKind s ≠ some true := by simp [hhead, hp]
      rw [if_neg hk, if_neg hk, evpop_release hq hp]
      exact ⟨rfl, rfl⟩
    | true =>
      have hk : headKind s = some true := by rw [hhead, hp]
      have hled : ledSide (ledKeypress { s with evq := rest }) = ledSide (ledKeypress s) :=
        ledKeypress_within_ledSide rfl
      have hdisplay : displaySide (displayKeypress (ledKeypress { s with evq := rest })) =
          displaySide (displayKeypress s) :=
        displayKeypress_within_displaySide ((displaySide_ledKeypress _).trans rfl)
      rw [if_pos hk, if_pos hk, evpop_press hq hp]
      exact ⟨hled, hdisplay⟩

theorem evpop_ledSide_of_headKind {s t : State} (hk : headKind s = headKind t) (h : ledSide s = ledSide t) :
    ledSide (evpop s) = ledSide (evpop t) := by
  rw [(evpop_animatorSides s).1, (evpop_animatorSides t).1, hk]
  split
  · exact ledKeypress_within_ledSide h
  · exact h

theorem evpop_displaySide_of_headKind {s t : State} (hk : headKind s = headKind t)
    (h : displaySide s = displaySide t) : displaySide (evpop s) = displaySide (evpop t) := by
  rw [(evpop_animatorSides s).2, (evpop_animatorSides t).2, hk]
  split
  · exact displayKeypress_within_displaySide h
  · exact h

/-- Settles O49: `EVPOP` shows the animators the head's kind only, and every other operation stays within each side. -/
theorem animatorsSeeOnlyTheKeypressStrobe : Obligations.AnimatorsSeeOnlyTheKeypressStrobe := by
  intro i s₁ s₂ t₁ t₂ hf₁ hf₂ hk h₁ h₂
  rw [exec_running hf₁] at h₁
  rw [exec_running hf₂] at h₂
  injection h₁ with h₁
  injection h₂ with h₂
  subst h₁ h₂
  by_cases hi : i = .evpop
  · subst hi
    exact ⟨evpop_ledSide_of_headKind (hk rfl), evpop_displaySide_of_headKind (hk rfl)⟩
  · exact ⟨fun h => effect_within_ledSide hi h, fun h => effect_within_displaySide hi h⟩

end Sys2Proof.Machine
end

section
/-! What a step keeps (spec/10_state.md rules R50 to R61): which operation writes what, the traces, the fault bits, the
parameters, and the invariant of the block, part by part of an operation's definition. -/

namespace Sys2Proof.Machine

/-! ### The register table (R56) -/

/-- `s` with the state that R56's table marks w for the operation, and the environment's answers that it takes, as in
`t`. -/
def writtenBy : Instr → State → State → State
  | .scan, s, t => { s with
      rowOut := t.rowOut, resid := t.resid, snap := t.snap, fault := t.fault
      scanScript := t.scanScript, freeScans := t.freeScans }
  | .debounce, s, t => { s with
      stable := t.stable, prevRaw := t.prevRaw, cnt := t.cnt, evq := t.evq, fault := t.fault }
  | .evpop, s, t => { s with
      evq := t.evq, evPort := t.evPort, outEv := t.outEv
      frame := t.frame, cidx := t.cidx, cphase := t.cphase, drawScript := t.drawScript, freeDraws := t.freeDraws
      sprite := t.sprite, dlast := t.dlast, outDraw := t.outDraw }
  | .ltick, s, t => { s with
      frame := t.frame, wpos := t.wpos, lcnt := t.lcnt, cidx := t.cidx, cphase := t.cphase
      drawScript := t.drawScript, freeDraws := t.freeDraws }
  | .lkey, s, t => { s with
      frame := t.frame, cidx := t.cidx, cphase := t.cphase, drawScript := t.drawScript, freeDraws := t.freeDraws }
  | .lframe, s, t => { s with outLed := t.outLed }
  | .lmode _, s, t => { s with
      mode := t.mode, lcnt := t.lcnt, cidx := t.cidx, cphase := t.cphase, frame := t.frame, wpos := t.wpos }
  | .dtick, s, t => { s with dcnt := t.dcnt, sprite := t.sprite, outDraw := t.outDraw }
  | .dkey, s, t => { s with sprite := t.sprite, dlast := t.dlast, outDraw := t.outDraw }

/-- An effect that, field by field, is some state's on what the table marks w and the old one elsewhere. -/
theorem effect_eq_writtenBy (i : Instr) (s : State) : ∃ u, effect i s = writtenBy i s u := by
  cases i with
  | scan => exact ⟨_, scan_frame s⟩
  | debounce => exact ⟨_, debounce_frame s⟩
  | evpop => exact ⟨{ evpop s with
      evq := s.evq.tail, evPort := s.evq.headD eventNone, outEv := s.outEv ++ s.evq.take 1 }, evpop_frame s⟩
  | ltick => exact ⟨_, ltick_frame s⟩
  | lkey => exact ⟨_, ledKeypress_frame s⟩
  | lframe => exact ⟨lframe s, rfl⟩
  | lmode m => exact ⟨{ lmode m s with mode := m, lcnt := 0, cidx := 0, cphase := 0 }, lmode_frame m s⟩
  | dtick => exact ⟨{ dtick s with dcnt := s.dcnt + 1 }, dtick_frame s⟩
  | dkey => exact ⟨displayKeypress s, rfl⟩

theorem writtenBy_self (i : Instr) (s : State) : writtenBy i s s = s := by
  cases i <;> rfl

/-- Halted or not, an operation writes at most what the table marks w. -/
theorem exec_eq_writtenBy {i : Instr} {s t : State} (h : exec i s = .next t) : ∃ u, t = writtenBy i s u := by
  rcases exec_cases h with ⟨_, rfl⟩ | ⟨_, rfl⟩
  · exact ⟨t, (writtenBy_self i t).symm⟩
  · exact effect_eq_writtenBy i s

section WriteTable

variable (i : Instr) (s u : State)

theorem writtenBy_scannerState (hi : i ≠ .scan) :
    (writtenBy i s u).rowOut = s.rowOut ∧ (writtenBy i s u).resid = s.resid ∧ (writtenBy i s u).snap = s.snap ∧
    (writtenBy i s u).scanScript = s.scanScript ∧ (writtenBy i s u).freeScans = s.freeScans := by
  cases i with
  | scan => exact absurd rfl hi
  | _ => exact ⟨rfl, rfl, rfl, rfl, rfl⟩

theorem writtenBy_comparatorState (hi : i ≠ .debounce) :
    (writtenBy i s u).stable = s.stable ∧ (writtenBy i s u).prevRaw = s.prevRaw ∧
    (writtenBy i s u).cnt = s.cnt := by
  cases i with
  | debounce => exact absurd rfl hi
  | _ => exact ⟨rfl, rfl, rfl⟩

theorem writtenBy_evq (hd : i ≠ .debounce) (he : i ≠ .evpop) : (writtenBy i s u).evq = s.evq := by
  cases i with
  | debounce => exact absurd rfl hd
  | evpop => exact absurd rfl he
  | _ => rfl

theorem writtenBy_eventOutput (hi : i ≠ .evpop) :
    (writtenBy i s u).evPort = s.evPort ∧ (writtenBy i s u).outEv = s.outEv := by
  cases i with
  | evpop => exact absurd rfl hi
  | _ => exact ⟨rfl, rfl⟩

theorem writtenBy_fault (hs : i ≠ .scan) (hd : i ≠ .debounce) : (writtenBy i s u).fault = s.fault := by
  cases i with
  | scan => exact absurd rfl hs
  | debounce => exact absurd rfl hd
  | _ => rfl

/-- The keypress strobe apart, only the LED animator's operations write the LED side. -/
theorem writtenBy_ledSide (he : i ≠ .evpop) (hl : isLedOp i = false) : ledSide (writtenBy i s u) = ledSide s := by
  cases i with
  | evpop => exact absurd rfl he
  | scan | debounce | dtick | dkey => rfl
  | ltick | lkey | lframe | lmode => cases hl

/-- The keypress strobe apart, only the display animator's operations write the display side. -/
theorem writtenBy_displaySide (he : i ≠ .evpop) (hd : isDisplayOp i = false) :
    displaySide (writtenBy i s u) = displaySide s := by
  cases i with
  | evpop => exact absurd rfl he
  | dtick | dkey => cases hd
  | _ => rfl

theorem writtenBy_dcnt (hi : i ≠ .dtick) : (writtenBy i s u).dcnt = s.dcnt := by
  cases i with
  | dtick => exact absurd rfl hi
  | _ => rfl

theorem writtenBy_inputs_cfg : (writtenBy i s u).inputs = s.inputs ∧ (writtenBy i s u).cfg = s.cfg := by
  cases i <;> exact ⟨rfl, rfl⟩

end WriteTable

/-- Settles O47, clause by clause from the register table. -/
theorem operationsWriteOnlyTheirOwnState : Obligations.OperationsWriteOnlyTheirOwnState := by
  intro i s t h
  obtain ⟨u, rfl⟩ := exec_eq_writtenBy h
  refine ⟨writtenBy_scannerState i s u, writtenBy_comparatorState i s u, writtenBy_evq i s u,
    writtenBy_eventOutput i s u, writtenBy_fault i s u, writtenBy_ledSide i s u, ?evpop, ?ltick, ?lkey, ?lframe,
    ?lmode, writtenBy_displaySide i s u, writtenBy_dcnt i s u, ?dtick, writtenBy_inputs_cfg i s u⟩
  case evpop => rintro rfl; exact ⟨rfl, rfl, rfl, rfl⟩
  case ltick => rintro rfl; exact ⟨rfl, rfl⟩
  case lkey => rintro rfl; exact ⟨rfl, rfl, rfl, rfl⟩
  case lframe => rintro rfl; rfl
  case lmode => rintro m rfl; exact ⟨rfl, rfl, rfl⟩
  case dtick => rintro rfl; rfl

/-! ### The parameters (R51) -/

theorem effect_cfg (i : Instr) (s : State) : (effect i s).cfg = s.cfg := by
  obtain ⟨u, hu⟩ := effect_eq_writtenBy i s
  rw [hu]
  exact (writtenBy_inputs_cfg i s u).2

/-- Settles O45, over everything a step can do. -/
theorem parametersNeverChange : Obligations.ParametersNeverChange := by
  intro s t h
  rcases step_cases h with ⟨_, rfl⟩ | ⟨_, _, _, _, rfl⟩ | ⟨_, _, i, _, _, _, rfl⟩ |
    ⟨_, _, _, _, _, _, rfl⟩ | ⟨_, _, _, _, rfl⟩
  · rfl
  · rfl
  · exact effect_cfg i _
  · rfl
  · rfl

/-! ### Steps without a reset (R50, R80) -/

/-- What a step can do when no reset is delivered: leave all but the inputs, or, on a running block, run an instruction
or raise ILLCMD. -/
theorem step_cases_of_noReset {s t : State} (hn : NoResetNext s) (h : step s = .next t) :
    (∃ rest, t = { s with inputs := rest }) ∨
    (s.fault = 0 ∧ ∃ rest, (∃ i, t = effect i { s with inputs := rest }) ∨
      t = raiseFault causeIllcmd { s with inputs := rest }) := by
  rcases step_cases h with ⟨_, rfl⟩ | ⟨_, rest, _, _, ht⟩ | ⟨_, rest, i, _, hf, _, ht⟩ |
    ⟨_, rest, _, _, hf, _, ht⟩ | ⟨input, rest, hi, ⟨src, hreset⟩, _⟩
  · exact .inl ⟨t.inputs, rfl⟩
  · exact .inl ⟨rest, ht⟩
  · exact .inr ⟨hf, rest, .inl ⟨i, ht⟩⟩
  · exact .inr ⟨hf, rest, .inr ht⟩
  · rcases hreset with rfl | ⟨w, rfl⟩
    · exact absurd hi (hn 0 src rest).1
    · exact absurd hi (hn w src rest).2

/-- Settles O9: a block with a bit of `FAULT` set is halted, so without a reset it takes its inputs and nothing else. -/
theorem faultBitsAreSticky : Obligations.FaultBitsAreSticky := by
  intro s t hn h k _ hbit
  rcases step_cases_of_noReset hn h with ⟨rest, rfl⟩ | ⟨hf, _⟩
  · exact hbit
  · simp [hf] at hbit

/-- Each output trace of `s` is the beginning of that of `t`. -/
def TracesGrow (s t : State) : Prop :=
  s.outEv <+: t.outEv ∧ s.outLed <+: t.outLed ∧ s.outDraw <+: t.outDraw

theorem TracesGrow.refl (s : State) : TracesGrow s s :=
  ⟨List.prefix_rfl, List.prefix_rfl, List.prefix_rfl⟩

theorem TracesGrow.trans {s t u : State} (h : TracesGrow s t) (h' : TracesGrow t u) : TracesGrow s u := by
  obtain ⟨hev, hled, hdraw⟩ := h
  obtain ⟨hev', hled', hdraw'⟩ := h'
  exact ⟨hev.trans hev', hled.trans hled', hdraw.trans hdraw'⟩

theorem emitEv_tracesGrow (e : EventWord) (s : State) : TracesGrow s (emitEv e s) :=
  ⟨List.prefix_append _ _, List.prefix_rfl, List.prefix_rfl⟩

theorem lframe_tracesGrow (s : State) : TracesGrow s (lframe s) :=
  ⟨List.prefix_rfl, List.prefix_append _ _, List.prefix_rfl⟩

theorem showSprite_tracesGrow (sp : Sprite) (s : State) : TracesGrow s (showSprite sp s) :=
  ⟨List.prefix_rfl, List.prefix_rfl, List.prefix_append _ _⟩

theorem displayKeypress_tracesGrow (s : State) : TracesGrow s (displayKeypress s) :=
  showSprite_tracesGrow (nextTap s.sprite) { s with dlast := s.dcnt }

theorem dtick_tracesGrow (s : State) : TracesGrow s (dtick s) := by
  unfold dtick
  dsimp only
  split
  · exact showSprite_tracesGrow .idle { s with dcnt := s.dcnt + 1 }
  · exact TracesGrow.refl s

theorem ledKeypress_tracesGrow (s : State) : TracesGrow s (ledKeypress s) := by
  rw [ledKeypress_frame]
  exact TracesGrow.refl s

/-- `EVPOP` appends the event, and on a Press the display's draw request before it (R160, R161). -/
theorem evpop_tracesGrow (s : State) : TracesGrow s (evpop s) := by
  cases hq : s.evq with
  | nil =>
    rw [evpop, hq]
    exact TracesGrow.refl s
  | cons e rest =>
    have htaken : TracesGrow s { s with evq := rest } := TracesGrow.refl s
    cases hp : eventIsPress e with
    | false =>
      rw [evpop_release hq hp]
      exact htaken.trans (emitEv_tracesGrow e _)
    | true =>
      rw [evpop_press hq hp]
      exact ((htaken.trans (ledKeypress_tracesGrow _)).trans (displayKeypress_tracesGrow _)).trans
        (emitEv_tracesGrow e _)

theorem effect_tracesGrow (i : Instr) (s : State) : TracesGrow s (effect i s) := by
  cases i with
  | scan => rw [effect, scan_frame]; exact TracesGrow.refl s
  | debounce => rw [effect, debounce_frame]; exact TracesGrow.refl s
  | evpop => exact evpop_tracesGrow s
  | ltick => rw [effect, ltick_frame]; exact TracesGrow.refl s
  | lkey => exact ledKeypress_tracesGrow s
  | lframe => exact lframe_tracesGrow s
  | lmode m => rw [effect, lmode_frame]; exact TracesGrow.refl s
  | dtick => exact dtick_tracesGrow s
  | dkey => exact displayKeypress_tracesGrow s

/-- Settles O46: what is not a reset leaves the traces or runs an operation, which only appends to them. -/
theorem tracesOnlyGrow : Obligations.TracesOnlyGrow := by
  intro s t hn h
  rcases step_cases_of_noReset hn h with ⟨rest, rfl⟩ | ⟨_, rest, ⟨i, rfl⟩ | rfl⟩
  · exact TracesGrow.refl s
  · exact effect_tracesGrow i { s with inputs := rest }
  · exact TracesGrow.refl s

/-! ### The sample of a `SCAN` (R138) -/

/-- Settles O12 from the law of a scan whose pins work; `AgesAt` at the last row is the ages clause. -/
theorem scanSampleIsTheKeyOrALeak : Obligations.ScanSampleIsTheKeyOrALeak := by
  intro s hf hpins hrow hres
  obtain ⟨hshape, hsample, ⟨hlength, hages⟩, hframe⟩ := scan_completes_spec s hpins hrow hres
  have hcfg : (scan s).cfg = s.cfg := effect_cfg .scan s
  rw [hcfg] at hlength hages
  refine ⟨scan s, exec_running hf, hshape, hsample, hlength, ?ages, ?frame⟩
  case ages =>
    intro r hr
    rw [hages r hr, if_pos hr, residualOf]
  case frame => simpa only [List.isEmpty_iff] using hframe

end Sys2Proof.Machine
end

section
/-! The invariant of the block (spec/10_state.md rules R60, R61): reset establishes it and every step keeps it. The LED
registers' part of it is kept by every part of an LED operation; the rest is carried over from the key side. -/

namespace Sys2Proof.Machine

/-! ### The LED registers (R60 (a), (d), (e)) -/

/-- What the invariant says of the LED animator's registers. -/
structure LedInRange (s : State) : Prop where
  frame : s.frame.length = s.cfg.numLeds
  wpos : s.wpos.length = s.cfg.numLeds
  lcnt : s.lcnt.toNat < divisor s.cfg.toParams s.mode
  cidx : s.cidx.toNat < s.cfg.numLeds

theorem Inv.ledInRange {s : State} (h : Inv s) : LedInRange s :=
  ⟨h.shapes.frame, h.shapes.wpos, h.counters.lcnt, h.counters.cidx⟩

theorem ledInRange_of_ledSide {s t : State} (h : LedInRange s) (hside : ledSide t = ledSide s) : LedInRange t := by
  cases s
  cases t
  simp only [ledSide, LedSide.mk.injEq] at hside
  obtain ⟨rfl, rfl, rfl, rfl, rfl, rfl, rfl, rfl, rfl, rfl⟩ := hside
  exact { h with }

theorem divisor_pos (p : Config) (m : Mode) : 0 < divisor p.toParams m :=
  ((config_bounds p).2.2.2.2.1 m).1

theorem numLeds_pos (p : Config) : 0 < p.numLeds :=
  (config_bounds p).2.2.2.1.1

theorem nextChaseIndex_lt (s : State) : (BitVec.ofNat 16 (nextChaseIndex s)).toNat < s.cfg.numLeds := by
  obtain ⟨hvalue, hlt⟩ := chaseIndex_toNat s
  rwa [hvalue]

namespace LedInRange

variable {s : State}

theorem afterDraw (h : LedInRange s) : LedInRange (afterDraw s) := { h with }

theorem writeLed (h : LedInRange s) (i : Nat) (t : Rgb) : LedInRange (writeLed i t s) :=
  { h with frame := by simpa using h.frame }

theorem fadeAll (h : LedInRange s) (d : Byte) : LedInRange (fadeAll d s) :=
  { h with frame := by simpa using h.frame }

theorem clearLcnt (h : LedInRange s) : LedInRange { s with lcnt := 0 } :=
  { h with lcnt := divisor_pos s.cfg s.mode }

theorem updateRainbow (h : LedInRange s) : LedInRange (updateRainbow s) :=
  { h with
    frame := by simpa [Machine.updateRainbow] using h.wpos
    wpos := by simpa [Machine.updateRainbow] using h.wpos }

theorem lightningFlash (h : LedInRange s) : LedInRange (lightningFlash s) := by
  unfold Machine.lightningFlash
  dsimp only
  split
  · exact h.afterDraw.afterDraw.writeLed _ _
  · exact h.afterDraw

theorem updateLightning (h : LedInRange s) : LedInRange (updateLightning s) := by
  unfold Machine.updateLightning
  dsimp only
  split
  · exact h.afterDraw.lightningFlash.fadeAll _
  · exact h.afterDraw.fadeAll _

theorem chaseStep (h : LedInRange s) : LedInRange (chaseStep s) := by
  rw [chaseStep_eq]
  exact { h with frame := by simpa using h.frame, cidx := nextChaseIndex_lt s }

theorem updateChase2 (h : LedInRange s) : LedInRange (updateChase2 s) := by
  rw [updateChase2_eq]
  exact { h with frame := by simpa using h.frame, cidx := nextChaseIndex_lt s }

theorem updateMode (h : LedInRange s) : LedInRange (updateMode s) := by
  unfold Machine.updateMode
  split
  · exact h.updateRainbow
  · exact h.updateLightning
  · exact h.chaseStep.fadeAll _
  · exact h.updateChase2

/-- The incremented counter stays below the divisor, or the update is due and starts it again (R189, R207 (c)). -/
theorem ltick (h : LedInRange s) : LedInRange (ltick s) := by
  by_cases hdue : divisor s.cfg.toParams s.mode ≤ (s.lcnt + 1).toNat
  · rw [ltick_updates hdue]
    exact h.clearLcnt.updateMode
  · have hlt := Nat.not_le.mp hdue
    rw [ltick_counts hlt]
    exact { h with lcnt := hlt }

theorem ledKeypress (h : LedInRange s) : LedInRange (ledKeypress s) := by
  unfold Machine.ledKeypress
  split
  · exact h
  · exact h.afterDraw.afterDraw.writeLed _ _
  · exact h.chaseStep
  · exact h

theorem lmode (h : LedInRange s) (m : Mode) : LedInRange (lmode m s) := by
  have hswitched : LedInRange { s with mode := m, lcnt := 0, cidx := 0, cphase := 0 } :=
    { h with lcnt := divisor_pos s.cfg m, cidx := numLeds_pos s.cfg }
  cases m with
  | rainbow => exact { hswitched with wpos := by simp [Machine.lmode, seedPositions] }
  | lightning | chase | chase2 => exact { hswitched with frame := List.length_replicate }

end LedInRange

/-! ### The key side carries the rest -/

/-- An operation of an animator leaves the key side alone (R6, R56). -/
theorem effect_keySide {i : Instr} (hi : isLedOp i = true ∨ isDisplayOp i = true) (s : State) :
    keySide (effect i s) = keySide s := by
  obtain ⟨u, hu⟩ := effect_eq_writtenBy i s
  rw [hu]
  cases i with
  | scan | debounce | evpop => simp [isLedOp, isDisplayOp] at hi
  | _ => rfl

/-- The keypress strobe apart, only the LED animator's operations touch the LED side (R6, R56). -/
theorem effect_ledSide {i : Instr} (he : i ≠ .evpop) (hl : isLedOp i = false) (s : State) :
    ledSide (effect i s) = ledSide s := by
  obtain ⟨u, hu⟩ := effect_eq_writtenBy i s
  rw [hu]
  exact writtenBy_ledSide i s u he hl

/-- A state with the same key side is as good, if its LED registers are in range. -/
theorem inv_of_keySide {s t : State} (h : Inv s) (hside : keySide t = keySide s) (hled : LedInRange t) : Inv t := by
  cases s
  cases t
  simp only [keySide, KeySide.mk.injEq] at hside
  obtain ⟨rfl, rfl, rfl, rfl, rfl, rfl, rfl, rfl, rfl, rfl, rfl, rfl, rfl⟩ := hside
  exact { h with
    shapes := { h.shapes with frame := hled.frame, wpos := hled.wpos }
    counters := { h.counters with lcnt := hled.lcnt, cidx := hled.cidx }
    queue := { h.queue with } }

/-- A state with the same key side and the same LED side is as good. -/
theorem inv_of_sides {s t : State} (h : Inv s) (hkey : keySide t = keySide s) (hled : ledSide t = ledSide s) : Inv t :=
  inv_of_keySide h hkey (ledInRange_of_ledSide h.ledInRange hled)

theorem inv_ledKeypress {s : State} (h : Inv s) : Inv (ledKeypress s) :=
  inv_of_keySide h (effect_keySide (i := .lkey) (.inl rfl) s) h.ledInRange.ledKeypress

theorem inv_displayKeypress {s : State} (h : Inv s) : Inv (displayKeypress s) :=
  inv_of_sides h rfl rfl

/-! ### Faults (R280 to R285) -/

/-- A fault on a running block is the only one, and only IOERR releases the row lines (R60 (h), R140, R285). -/
theorem inv_raiseFault {s : State} (h : Inv s) (hf : s.fault = 0) {cause : Nat}
    (hc : cause = causeIoerr ∨ cause = causeIllcmd ∨ cause = causeProto) : Inv (raiseFault cause s) := by
  have hfault : (raiseFault cause s).fault = faultBit cause := by simp [hf]
  have hrunning : s.fault.getLsbD causeIoerr = false := by simp [hf]
  exact { h with
    shapes := { h.shapes with }
    counters := { h.counters with }
    queue := { h.queue with }
    rowsIdle := fun _ => h.rowsIdle hrunning
    oneFault := by
      rw [hfault]
      rcases hc with rfl | rfl | rfl
      · exact .inr (.inl rfl)
      · exact .inr (.inr (.inl rfl))
      · exact .inr (.inr (.inr rfl)) }

/-! ### `SCAN` (R130, R140) -/

theorem AgesAt.age_lt {k : Nat} {s : State} (h : AgesAt k s) {us : Nat} (hmem : Residual.age us ∈ s.resid) :
    us < s.cfg.settleMinUs := by
  obtain ⟨hlength, hages⟩ := h
  obtain ⟨r, hr, hget⟩ := List.mem_iff_getElem.mp hmem
  have hage := hages r (hlength ▸ hr)
  rw [List.getD_eq_getElem _ _ hr, hget] at hage
  split at hage
  · refine residualAfter_age_lt s.cfg.toParams ((k - r) * s.cfg.settleUs) us (.age 0) ?_
    rw [residualAfter, Nat.zero_add, hage]
  · cases hage

/-- A completed scan leaves every row inactive; after a failed one they may be active, but IOERR is set (R60 (h), R140). -/
theorem inv_scan {s : State} (h : Inv s) (hf : s.fault = 0) : Inv (scan s) := by
  by_cases hpins : PinsWork s
  · obtain ⟨hsnap, -, hages, hframe⟩ := scan_completes_spec s hpins h.shapes.rowOut h.shapes.resid
    have hcfg : (scan s).cfg = s.cfg := effect_cfg .scan s
    have hlength : (scan s).resid.length = s.cfg.rows := hcfg ▸ hages.1
    have hsettling : ∀ us, Residual.age us ∈ (scan s).resid → us < s.cfg.settleMinUs :=
      fun _ hmem => hcfg ▸ hages.age_lt hmem
    rw [hframe]
    exact { h with
      shapes := { h.shapes with rowOut := List.length_replicate, resid := hlength, snap := hsnap }
      counters := { h.counters with }
      queue := { h.queue with }
      rowsIdle := fun _ _ hl => List.eq_of_mem_replicate hl
      ages := hsettling }
  · obtain ⟨hrows, hresid, hsettling, hframe⟩ := scan_fails_spec s hpins
    have hfault : s.fault ||| faultBit causeIoerr = faultBit causeIoerr := by simp [hf]
    have hreleased : (faultBit causeIoerr).getLsbD causeIoerr ≠ false := by decide
    rw [hframe, hfault]
    exact { h with
      shapes := { h.shapes with rowOut := hrows, resid := hresid }
      counters := { h.counters with }
      queue := { h.queue with }
      rowsIdle := fun hbit => absurd hbit hreleased
      ages := hsettling
      oneFault := .inr (.inl rfl) }

/-! ### `DEBOUNCE` (R150 to R158) -/

theorem debounceAll_countersInRange {s : State} (h : CountersInRange s) : CountersInRange (debounceAll s) := by
  have hn := (config_bounds s.cfg).2.2.1
  refine { h with cnt := fun r hr c hc => ?_, cntZero := fun r hr c hc => ?_ }
  · simp only [debounceAll] at hr hc ⊢
    rw [gridAt_gridOf _ _ hr hc]
    exact keyUpdate_cnt_lt hn.1 _ _ _ _
  · simp only [debounceAll] at hr hc ⊢
    rw [gridAt_gridOf _ _ hr hc, gridAt_gridOf _ _ hr hc, gridAt_gridOf _ _ hr hc]
    exact keyUpdate_cntZero hn (h.cnt r hr c hc)

theorem debounceAll_queueInOrder (s : State) : QueueInOrder (debounceAll s) where
  length := debounceEvents_length s
  sorted := debounceEvents_sorted s
  event := by
    intro e he
    obtain ⟨r, hr, c, hc, -, rfl⟩ := (mem_debounceEvents s e).mp he
    obtain ⟨hrow, hcol⟩ := event_key s.cfg (keyUpdateAt s r c).stable hr hc
    simp only [debounceAll]
    rw [hrow, hcol, gridAt_gridOf _ _ hr hc]
    exact ⟨hr, hc, rfl⟩

theorem inv_debounce {s : State} (h : Inv s) (hf : s.fault = 0) : Inv (debounce s) := by
  unfold debounce
  split
  · exact { h with
      shapes := { h.shapes with
        stable := gridOf_shape _ _, prevRaw := gridOf_shape _ _, cnt := gridOf_shape _ _ }
      counters := debounceAll_countersInRange h.counters
      queue := debounceAll_queueInOrder s }
  · exact inv_raiseFault h hf (.inr (.inr rfl))

/-! ### `EVPOP` (R160 to R162) -/

theorem inv_dropHead {s : State} (h : Inv s) {e : EventWord} {rest : List EventWord} (hq : s.evq = e :: rest) :
    Inv { s with evq := rest } := by
  obtain ⟨hlength, hsorted, hevent⟩ := h.queue
  rw [hq] at hlength hsorted hevent
  exact { h with
    shapes := { h.shapes with }
    counters := { h.counters with }
    queue := {
      length := (Nat.le_succ _).trans hlength
      sorted := hsorted.of_cons
      event := fun e' he' => hevent e' (List.mem_cons_of_mem e he') } }

theorem inv_emitEv {s : State} (h : Inv s) (e : EventWord) : Inv (emitEv e s) :=
  { h with
    shapes := { h.shapes with }
    counters := { h.counters with }
    queue := { h.queue with }
    port := .inr List.getLast?_concat }

theorem inv_showNone {s : State} (h : Inv s) : Inv { s with evPort := eventNone } :=
  { h with
    shapes := { h.shapes with }
    counters := { h.counters with }
    queue := { h.queue with }
    port := .inl rfl }

theorem inv_evpop {s : State} (h : Inv s) : Inv (evpop s) := by
  unfold evpop
  split
  · exact inv_showNone h
  · rename_i e rest hq
    have htaken := inv_dropHead h hq
    refine inv_emitEv ?_ e
    split
    · exact inv_displayKeypress (inv_ledKeypress htaken)
    · exact htaken

/-! ### Every operation, reset, every step -/

theorem inv_effect {s : State} (h : Inv s) (hf : s.fault = 0) (i : Instr) : Inv (effect i s) := by
  cases i with
  | scan => exact inv_scan h hf
  | debounce => exact inv_debounce h hf
  | evpop => exact inv_evpop h
  | ltick => exact inv_of_keySide h (effect_keySide (.inl rfl) s) h.ledInRange.ltick
  | lkey => exact inv_ledKeypress h
  | lframe => exact inv_of_keySide h rfl { h.ledInRange with }
  | lmode m => exact inv_of_keySide h (effect_keySide (.inl rfl) s) (h.ledInRange.lmode m)
  | dtick => exact inv_of_sides h (effect_keySide (.inr rfl) s) (effect_ledSide (i := .dtick) nofun rfl s)
  | dkey => exact inv_displayKeypress h

/-- Every array that reset writes has its length (R61). -/
theorem shapes_applyReset (s : State) : Shapes (applyReset s) where
  rowOut := List.length_replicate
  resid := List.length_replicate
  snap := replicate_shape _ _
  stable := replicate_shape _ _
  prevRaw := replicate_shape _ _
  cnt := replicate_shape _ _
  frame := List.length_replicate
  wpos := List.length_replicate

/-- Every key of the arrays that reset writes is released, stable and without a count (R61). -/
theorem applyReset_keys (s : State) {r c : Nat} (hr : r < s.cfg.rows) (hc : c < s.cfg.cols) :
    gridAt (applyReset s).snap r c = false ∧ gridAt (applyReset s).stable r c = false ∧
    gridAt (applyReset s).prevRaw r c = false ∧ gridAt (applyReset s).cnt r c = 0 :=
  ⟨gridAt_replicate _ _ hr hc, gridAt_replicate _ _ hr hc, gridAt_replicate _ _ hr hc, gridAt_replicate _ _ hr hc⟩

theorem inv_applyReset (s : State) : Inv (applyReset s) where
  shapes := shapes_applyReset s
  counters := {
    cnt := fun r hr c hc => by
      obtain ⟨-, -, -, hcnt⟩ := applyReset_keys s hr hc
      rw [hcnt]
      exact (config_bounds s.cfg).2.2.1.1
    cntZero := fun r hr c hc => by
      obtain ⟨-, hstable, hprevRaw, hcnt⟩ := applyReset_keys s hr hc
      rw [hcnt, hprevRaw, hstable]
      exact iff_of_true rfl rfl
    lcnt := divisor_pos s.cfg .rainbow
    cidx := numLeds_pos s.cfg }
  queue := ⟨Nat.zero_le _, List.Pairwise.nil, fun _ he => nomatch he⟩
  rowsIdle := fun _ _ hl => List.eq_of_mem_replicate hl
  ages := fun _ hmem => nomatch List.eq_of_mem_replicate hmem
  oneFault := .inl rfl
  port := .inl rfl

/-- Settles O43, over everything a step can do. -/
theorem stepKeepsTheInvariant : Obligations.StepKeepsTheInvariant := by
  intro s t h hstep
  have hinputs (rest : List HostInput) : Inv { s with inputs := rest } := inv_of_sides h rfl rfl
  rcases step_cases hstep with ⟨_, rfl⟩ | ⟨_, rest, _, _, rfl⟩ | ⟨_, rest, i, _, hf, _, rfl⟩ |
    ⟨_, rest, _, _, hf, _, rfl⟩ | ⟨_, _, _, _, rfl⟩
  · exact h
  · exact hinputs rest
  · exact inv_effect (hinputs rest) hf i
  · exact inv_raiseFault (hinputs rest) hf (.inr (.inl rfl))
  · exact inv_applyReset _

/-- Settles O44: the state after reset of a configuration is a reset of itself. -/
theorem invariantHoldsAfterReset : Obligations.InvariantHoldsAfterReset :=
  have hreset (c : Config) : Inv (State.resetWith c) := inv_applyReset (State.resetWith c)
  ⟨hreset, hreset State.resetConfig⟩

/-- Settles O8, register by register from `applyReset`. -/
theorem resetGivesTheResetValues : Obligations.ResetGivesTheResetValues := by
  rintro s input ⟨src, hinput⟩
  have hrun : runInput input s = .next (applyReset s) := by
    rcases hinput with rfl | ⟨w, rfl⟩
    · rfl
    · rfl
  exact ⟨applyReset s, hrun, rfl, shapes_applyReset s, fun _ => List.eq_of_mem_replicate,
    fun _ => List.eq_of_mem_replicate, fun r hr c hc => applyReset_keys s hr hc, rfl,
    fun _ => List.eq_of_mem_replicate, fun _ => List.eq_of_mem_replicate,
    rfl, rfl, rfl, rfl, rfl, rfl, rfl, rfl, rfl, rfl, rfl, rfl⟩

end Sys2Proof.Machine
end

section
/-! The command word (spec/30_encoding.md). A word decodes to an instruction exactly when it is that instruction's encoding;
the decoder is read row by row, in the order of the opcode map (R103). -/

namespace Sys2Proof

/-! ### The rows of the opcode map -/

/-- A row without operand bits admits its pattern alone. -/
theorem rowMatches_fixed (w pattern : Byte) : rowMatches w pattern 0xFF = true ↔ w = pattern := by
  have hmask : w &&& 0xFF = w := BitVec.and_allOnes
  rw [rowMatches, hmask, beq_iff_eq]

/-- The row of `LMODE` admits the words of format M (R102). -/
theorem rowMatches_lmode (w : Byte) : rowMatches w 0x34 0xFC = true ↔ w = formatM (modeField w) := by
  revert w
  decide

theorem modeTag_modeOfTag (t : BitVec 2) : modeTag (modeOfTag t) = t := by
  revert t
  decide

/-! ### Decoding against encoding -/

theorem decode_encode (i : Instr) : decode (encode i) = .ok i := by
  cases i with
  | lmode m => cases m <;> rfl
  | _ => rfl

section Rows

variable {w : Byte} {i j : Instr} {rest : Except IllegalWord Instr}

/-- A decoder that tries one row and then others is right if the row and the others are. -/
theorem encode_of_row {hit : Bool} (hrow : hit = true → encode j = w) (hrest : rest = .ok i → encode i = w)
    (h : (if hit then .ok j else rest) = .ok i) : encode i = w := by
  split at h
  · rename_i hhit
    cases h
    exact hrow hhit
  · exact hrest h

theorem encode_of_fixedRow (h : rowMatches w (encode j) 0xFF = true) : encode j = w :=
  ((rowMatches_fixed w (encode j)).mp h).symm

theorem encode_of_lmodeRow (h : rowMatches w 0x34 0xFC = true) : encode (.lmode (modeOfTag (modeField w))) = w := by
  rw [encode, modeTag_modeOfTag]
  exact ((rowMatches_lmode w).mp h).symm

/-- Row by row: what a word decodes to encodes to that word. -/
theorem encode_of_decode (h : decode w = .ok i) : encode i = w := by
  unfold decode at h
  refine encode_of_row (encode_of_fixedRow (j := .scan)) ?_ h
  refine encode_of_row (encode_of_fixedRow (j := .debounce)) ?_
  refine encode_of_row (encode_of_fixedRow (j := .evpop)) ?_
  refine encode_of_row (encode_of_fixedRow (j := .ltick)) ?_
  refine encode_of_row (encode_of_fixedRow (j := .lkey)) ?_
  refine encode_of_row (encode_of_fixedRow (j := .lframe)) ?_
  refine encode_of_row encode_of_lmodeRow ?_
  refine encode_of_row (encode_of_fixedRow (j := .dtick)) ?_
  exact encode_of_row (encode_of_fixedRow (j := .dkey)) nofun

theorem decode_eq_ok_iff : decode w = .ok i ↔ encode i = w :=
  ⟨encode_of_decode, fun h => h ▸ decode_encode i⟩

end Rows

/-- Settles O1: each direction of `decode_eq_ok_iff`. -/
theorem decodeAndEncodeAreInverse : Obligations.DecodeAndEncodeAreInverse :=
  ⟨fun i _ => decode_encode i, fun _ _ h => encode_of_decode h⟩

/-! ### The twelve legal words -/

/-- The operations in the order of the opcode map, `LMODE` once for each mode (R103, R106). -/
def everyInstr : List Instr :=
  [.scan, .debounce, .evpop, .ltick, .lkey, .lframe, .lmode .rainbow, .lmode .lightning, .lmode .chase, .lmode .chase2,
    .dtick, .dkey]

theorem mem_everyInstr (i : Instr) : i ∈ everyInstr := by
  cases i with
  | lmode m => cases m <;> decide
  | _ => decide

/-- A word is legal when it is the encoding of one of the twelve operations. -/
theorem decodes_iff_mem_map_encode (w : Byte) : (∃ i, decode w = .ok i) ↔ w ∈ everyInstr.map encode := by
  simp only [decode_eq_ok_iff, List.mem_map, mem_everyInstr, true_and]

/-- Settles O2: the list of R103 is the list of the encodings. -/
theorem legalWordsAreTheTwelve : Obligations.LegalWordsAreTheTwelve :=
  decodes_iff_mem_map_encode

/-- Settles O3: each legal sample is the encoding of its instruction; the last one is in no row. -/
theorem sampleWordsDecode : Obligations.SampleWordsDecode :=
  ⟨decode_encode .scan, decode_encode .evpop, decode_encode .lframe, decode_encode (.lmode .lightning),
    decode_encode .dkey, rfl⟩

/-- Eight table bits hold the whole word (R100). -/
theorem commandByte_toNat (w : Byte) : commandByte 8 w.toNat = w := by
  rw [commandByte, Nat.mod_eq_of_lt w.isLt, BitVec.ofNat_toNat, BitVec.setWidth_eq]

end Sys2Proof

namespace Sys2Proof.Machine

/-! ### The step (R55, R104) -/

theorem step_of_input {s : State} {input : HostInput} {rest : List HostInput} (h : s.inputs = input :: rest) :
    step s = runInput input { s with inputs := rest } := by
  rw [step, takeInput, h]

theorem runInput_command {w : Byte} {i : Instr} (hd : decode w = .ok i) (s : State) :
    runInput (.command w) s = exec i s := by
  rw [runInput, runCommand, hd]

/-- A fetched word is the next input, and taking it gives the old state back. -/
theorem step_withFetchWord (s : State) (w : Byte) : step (s.withFetchWord 8 w.toNat) = runInput (.command w) s := by
  rw [State.withFetchWord, commandByte_toNat]
  exact step_of_input rfl

/-- Settles O4, from what a step does with an input and an input with a word that decodes. -/
theorem stepRunsTheDecodedInstruction : Obligations.StepRunsTheDecodedInstruction := by
  refine ⟨fun s input rest hi => step_of_input hi, fun s w rest i hi hd _ => ?next, fun s w i hd => ?fetched⟩
  case next => rw [step_of_input hi, runInput_command hd]
  case fetched => rw [step_withFetchWord, runInput_command hd]

/-! ### `EVDRAIN` (R114) -/

/-- `EVPOP` notes the time of a keypress when the event it takes is a Press (R161, R240). -/
theorem evpop_dlast (s : State) :
    (evpop s).dlast = if (s.evq.take 1).any eventIsPress then s.dcnt else s.dlast := by
  cases hq : s.evq with
  | nil => rw [evpop, hq]; rfl
  | cons e rest =>
    cases hp : eventIsPress e with
    | false => simp [evpop_release hq hp, hp]
    | true =>
      rw [evpop_press hq hp, displayKeypress_eq, ledKeypress_frame]
      simp [hp]

/-- After a run of `EVPOP`s, the time noted is the present one if a Press was among the events taken. -/
theorem evpop_run_dlast (n : Nat) {s t : State} (hf : s.fault = 0)
    (h : execAll (List.replicate n .evpop) s = .next t) :
    t.dlast = if (s.evq.take n).any eventIsPress then s.dcnt else s.dlast := by
  induction n generalizing s with
  | zero => cases h; rfl
  | succ n ih =>
    have hframe := evpop_frame s
    have hf' : (evpop s).fault = 0 := by rw [hframe]; exact hf
    have hdcnt : (evpop s).dcnt = s.dcnt := by rw [hframe]
    have hevq : (evpop s).evq = s.evq.tail := by rw [hframe]
    rw [List.replicate_succ, execAll_cons_running hf] at h
    rw [ih hf' h, hevq, hdcnt, evpop_dlast]
    cases s.evq with
    | nil => simp
    | cons e rest => cases he : eventIsPress e <;> simp [he]

/-- Settles O21: within the queue's bound a run of `EVPOP`s takes every event. -/
theorem evdrainEmptiesTheQueue : Obligations.EvdrainEmptiesTheQueue := by
  intro s hf hlength
  obtain ⟨t, ht, hout, hframe⟩ := evpop_run (s.cfg.rows * s.cfg.cols) s hf
  have htake := List.take_of_length_le hlength
  have hdlast := evpop_run_dlast _ hf ht
  rw [htake] at hout hdlast
  refine ⟨t, ht, ?drained, hout, ?running, ?snap, ?stable, ?prevRaw, ?cnt, ?rowOut, ?resid, ?scanScript, ?pressed⟩
  case drained => rw [hframe]; exact List.drop_eq_nil_of_le hlength
  case running => rw [hframe]; exact hf
  case pressed => exact fun hpress => hdlast.trans (if_pos (List.any_eq_true.mpr hpress))
  all_goals rw [hframe]

end Sys2Proof.Machine
end

section
/-! One `SCAN` (spec/40_scanner.md): with a settle delay that is long enough no earlier row leaks into a sample, so the
snapshot is the matrix; a failing pin operation raises IOERR before the snapshot is written. -/

namespace Sys2Proof.Machine

/-! ### A settle delay that is long enough (R138) -/

/-- An earlier row has been inactive for at least one settle delay, and one is enough. -/
theorem SettlesInTime.settleMinUs_le_mul {p : Params} (h : SettlesInTime p) {n : Nat} (hn : 0 < n) :
    p.settleMinUs ≤ n * p.settleUs :=
  Nat.le_trans h (Nat.le_mul_of_pos_left _ hn)

theorem SettlesInTime.sampleAt_iff {p : Params} (h : SettlesInTime p) (a : ScanAnswers) (r c : Nat) :
    sampleAt p a r c ↔ keyReads a r r c = true := by
  constructor
  · rintro (hkey | ⟨_, r', hlt, hyoung, _⟩)
    · exact hkey
    · exact absurd hyoung (Nat.not_lt.mpr (h.settleMinUs_le_mul (Nat.sub_pos_of_lt hlt)))
  · exact .inl

/-- When the last row's delay is over, every row is settled. -/
theorem SettlesInTime.resid_eq {s : State} (h : SettlesInTime s.cfg.toParams) (hages : AgesAt s.cfg.rows s) :
    s.resid = List.replicate s.cfg.rows .settled := by
  obtain ⟨hlength, hage⟩ := hages
  refine List.ext_getElem (by simp [hlength]) fun r hr _ => ?_
  have hrows : r < s.cfg.rows := hlength ▸ hr
  calc s.resid[r]
      = s.resid.getD r .settled := (List.getD_eq_getElem _ _ hr).symm
    _ = residualOf s.cfg.toParams ((s.cfg.rows - r) * s.cfg.settleUs) := by rw [hage r hrows, if_pos hrows]
    _ = .settled := if_pos (h.settleMinUs_le_mul (Nat.sub_pos_of_lt hrows))
    _ = (List.replicate s.cfg.rows Residual.settled)[r] := by rw [List.getElem_replicate]

/-- Settles O11 from the law of a scan whose pins work: neither its leaks nor its ages outlast a long enough delay. -/
theorem settledScanRecordsTheMatrix : Obligations.SettledScanRecordsTheMatrix := by
  intro s hf hpins hsettles hrow hres
  obtain ⟨hshape, hsample, hages, hframe⟩ := scan_completes_spec s hpins hrow hres
  have hcfg : (scan s).cfg = s.cfg := effect_cfg .scan s
  have hresid : (scan s).resid = List.replicate s.cfg.rows .settled := by
    rw [← hcfg] at hsettles hages
    rw [hsettles.resid_eq hages, hcfg]
  refine ⟨scan s, exec_running hf, hshape, ?matrix, ?frame⟩
  case matrix => exact fun r hr c hc => Bool.eq_iff_iff.mpr ((hsample r hr c hc).trans (hsettles.sampleAt_iff _ r c))
  case frame => simpa only [hresid, List.isEmpty_iff] using hframe

/-! ### A failing pin operation (R140, R281) -/

/-- Settles O13 from the law of a scan whose pins do not work; IOERR is the first fault of a running block. -/
theorem pinFailureRaisesIoerr : Obligations.PinFailureRaisesIoerr := by
  intro s k hf hfail hk
  have hpins : ¬ PinsWork s := fun h => Nat.not_le.mpr hk (h k hfail)
  obtain ⟨hrow, hres, _, hframe⟩ := scan_fails_spec s hpins
  have hfault : s.fault ||| faultBit causeIoerr = 0b001 := by rw [hf]; rfl
  refine ⟨scan s, exec_running hf, hrow, hres, ?frame⟩
  case frame => simpa only [hfault, List.isEmpty_iff] using hframe

end Sys2Proof.Machine
end

section
/-! The debouncer's operations one at a time (spec/41_debouncer.md): the comparator against R151's clauses and without
`PREV_RAW`, the events of one `DEBOUNCE`, and what `EVPOP` presents. -/

namespace Sys2Proof.Machine

/-! ### The comparator of one key (R151, R158) -/

/-- Where the raw bit differs, `n` is the count it has reached, from `PREV_RAW` and the old count (R151). -/
theorem keyUpdate_of_ne {threshold : Nat} {raw stable prevRaw : Bool} {cnt n : Half} (hne : raw ≠ stable)
    (hn : n = if raw = prevRaw then cnt + 1 else 1) :
    keyUpdate threshold raw stable prevRaw cnt =
      if threshold ≤ n.toNat then { stable := raw, prevRaw := raw, cnt := 0, fired := true }
      else { stable := stable, prevRaw := raw, cnt := n, fired := false } := by
  rw [keyUpdate, if_neg hne, hn]

/-- Settles O17, by whether the raw bit differs from the stable state. -/
theorem comparatorNeedsNoPreviousRaw : Obligations.ComparatorNeedsNoPreviousRaw := by
  intro threshold raw stable prevRaw cnt hthreshold hcnt hzero
  by_cases hraw : raw = stable
  · rw [if_pos hraw, hraw, keyUpdate_same]
  · rw [if_neg hraw, keyUpdate_differs hthreshold hcnt hzero hraw]

/-! ### `DEBOUNCE` on a drained queue (R150) -/

theorem exec_debounce_drained {s : State} (hf : s.fault = 0) (hq : s.evq = []) :
    exec .debounce s = .next (debounceAll s) := by
  have hdrained : debounce s = debounceAll s := by rw [debounce, hq]; rfl
  rw [exec_running hf, effect, hdrained]

/-- Each key is left as its own comparator leaves it (R157). -/
theorem debounceAll_at (s : State) {r c : Nat} (hr : r < s.cfg.rows) (hc : c < s.cfg.cols) :
    gridAt (debounceAll s).stable r c = (keyUpdateAt s r c).stable ∧
    gridAt (debounceAll s).prevRaw r c = (keyUpdateAt s r c).prevRaw ∧
    gridAt (debounceAll s).cnt r c = (keyUpdateAt s r c).cnt :=
  ⟨gridAt_gridOf _ _ hr hc, gridAt_gridOf _ _ hr hc, gridAt_gridOf _ _ hr hc⟩

/-- Settles O14: key by key, R151's clauses are the comparator's cases. -/
theorem debounceRunsTheComparatorOnEveryKey : Obligations.DebounceRunsTheComparatorOnEveryKey := by
  intro s hf hq
  refine ⟨debounceAll s, exec_debounce_drained hf hq, gridOf_shape _ _, gridOf_shape _ _, gridOf_shape _ _, ?keys, rfl⟩
  intro r hr c hc
  obtain ⟨hstable, hprevRaw, hcnt⟩ := debounceAll_at s hr hc
  rw [hstable, hprevRaw, hcnt, keyUpdateAt]
  refine ⟨keyUpdate_prevRaw _ _ _ _ _, fun hsame => ?same, fun hne n hn => ?differs⟩
  case same =>
    rw [hsame, keyUpdate_same]
    exact ⟨rfl, rfl⟩
  case differs =>
    rw [keyUpdate_of_ne hne hn]
    constructor
    · intro hreached
      rw [if_pos hreached]
      exact ⟨rfl, rfl⟩
    · intro hshort
      rw [if_neg (Nat.not_le.mpr hshort)]
      exact ⟨rfl, rfl⟩

/-- Settles O15: the queue is `debounceEvents`, whose events are those of the keys whose comparator changed them. -/
theorem debounceQueuesTheConfirmedChangesInOrder : Obligations.DebounceQueuesTheConfirmedChangesInOrder := by
  intro s hf hq
  refine ⟨debounceAll s, exec_debounce_drained hf hq, debounceEvents_length s, debounceEvents_sorted s, fun e => ?_⟩
  refine (mem_debounceEvents s e).trans ?_
  constructor
  · rintro ⟨r, hr, c, hc, h⟩
    exact ⟨r, hr, c, hc, by rwa [(debounceAll_at s hr hc).1]⟩
  · rintro ⟨r, hr, c, hc, h⟩
    exact ⟨r, hr, c, hc, by rwa [(debounceAll_at s hr hc).1] at h⟩

/-! ### `EVPOP` (R160 to R162) -/

/-- Settles O19. -/
theorem popOfEmptyQueuePresentsNone : Obligations.PopOfEmptyQueuePresentsNone := by
  intro s hf hq
  rw [exec_running hf, effect, evpop, hq]
  rfl

/-- Settles O20, by the kind of the queue's head; neither keypress reaction raises a fault or hands over an event. -/
theorem popStrobesTheAnimatorsOnAPress : Obligations.PopStrobesTheAnimatorsOnAPress := by
  intro s e rest hf hq
  rw [exec_running hf, effect]
  constructor
  · intro hpress
    have hled := effect_keySide (i := .lkey) (.inl rfl) { s with evq := rest }
    have hrunning : (ledKeypress { s with evq := rest }).fault = 0 := (congrArg KeySide.fault hled).trans hf
    have houtEv : (displayKeypress (ledKeypress { s with evq := rest })).outEv = s.outEv :=
      congrArg KeySide.outEv hled
    refine ⟨_, _, exec_running hf, exec_running hrunning, ?_⟩
    rw [evpop_press hq hpress, emitEv, houtEv]
    rfl
  · intro hrelease
    rw [evpop_release hq hrelease]
    rfl

end Sys2Proof.Machine
end

section
/-! Several operations one after the other (spec/00_scope.md rule R57, spec/20_memory.md rule R80): what every operation
keeps a list of them keeps, and a list that ends without a fault ran its last operation on a running block. -/

namespace Sys2Proof.Machine

/-- What each operation of a list keeps on a running block, the list keeps; a halted block keeps everything (R286). -/
theorem execAll_keeps {P : State → Prop} {is : List Instr} {s t : State}
    (hkeep : ∀ i ∈ is, ∀ v, v.fault = 0 → P v → P (effect i v)) (h : execAll is s = .next t) (hs : P s) : P t := by
  induction is generalizing s with
  | nil =>
    cases h
    exact hs
  | cons i rest ih =>
    by_cases hf : s.fault = 0
    · rw [execAll_cons_running hf] at h
      exact ih (fun j hj => hkeep j (List.mem_cons_of_mem i hj)) h (hkeep i List.mem_cons_self s hf hs)
    · rw [execAll_halted hf] at h
      cases h
      exact hs

theorem execAll_cfg {is : List Instr} {s t : State} (h : execAll is s = .next t) : t.cfg = s.cfg :=
  execAll_keeps (P := fun v => v.cfg = s.cfg) (fun i _ v _ hv => (effect_cfg i v).trans hv) h rfl

theorem inv_execAll {is : List Instr} {s t : State} (h : execAll is s = .next t) (hs : Inv s) : Inv t :=
  execAll_keeps (fun i _ _ hf hv => inv_effect hv hf i) h hs

theorem execAll_tracesGrow {is : List Instr} {s t : State} (h : execAll is s = .next t) : TracesGrow s t :=
  execAll_keeps (P := TracesGrow s) (fun i _ v _ hv => hv.trans (effect_tracesGrow i v)) h (TracesGrow.refl s)

/-- The operations of the animators, however many, leave the key side alone (R6, R56). -/
theorem execAll_keySide {is : List Instr} {s t : State} (his : ∀ i ∈ is, isLedOp i = true ∨ isDisplayOp i = true)
    (h : execAll is s = .next t) : keySide t = keySide s :=
  execAll_keeps (P := fun v => keySide v = keySide s) (fun i hi v _ hv => (effect_keySide (his i hi) v).trans hv) h rfl

/-- A list that ends without a fault ran its last operation on a running block. -/
theorem execAll_concat {is : List Instr} {i : Instr} {s t : State} (h : execAll (is ++ [i]) s = .next t)
    (ht : t.fault = 0) : ∃ v, execAll is s = .next v ∧ v.fault = 0 ∧ t = effect i v := by
  obtain ⟨v, hv⟩ := execAll_next is s
  rw [execAll_append hv] at h
  have hf : v.fault = 0 := execAll_running h ht
  rw [execAll_cons_running hf] at h
  cases h
  exact ⟨v, hv, hf, rfl⟩

end Sys2Proof.Machine
end

section
/-! A key over a run of ticks' front parts, `SCAN`, `DEBOUNCE`, `EVDRAIN` (spec/41_debouncer.md rules R153, R155, R159):
what one front part does to the key, and the count of the scans that see it changed. -/

namespace Sys2Proof.Machine

/-! ### The events of one key (R152) -/

/-- An event of the key at (r, c). -/
def ofKey (r c : Nat) (e : EventWord) : Bool := eventRow e == r && eventCol e == c

theorem ofKey_eventWord (p : Config) (press : Bool) {r c r' c' : Nat} (hr' : r' < p.rows) (hc' : c' < p.cols) :
    ofKey r c (eventWord press r' c') = true ↔ r' = r ∧ c' = c := by
  obtain ⟨hrow, hcol⟩ := event_key p press hr' hc'
  rw [ofKey, hrow, hcol, Bool.and_eq_true, beq_iff_eq, beq_iff_eq]

theorem debounceEvents_nodup (s : State) : (debounceEvents s).Nodup :=
  (debounceEvents_sorted s).imp fun hbefore heq => by
    subst heq
    omega

/-- Of the events of one `DEBOUNCE`, those of one key are the event of its comparator, if it has any. -/
theorem debounceEvents_filter_ofKey (s : State) {r c : Nat} (hr : r < s.cfg.rows) (hc : c < s.cfg.cols) :
    (debounceEvents s).filter (ofKey r c) = (keyEvent s r c).toList := by
  have hmem (e : EventWord) : e ∈ (debounceEvents s).filter (ofKey r c) ↔ keyEvent s r c = some e := by
    rw [List.mem_filter, mem_debounceEvents, keyEvent_eq_some]
    constructor
    · rintro ⟨⟨r', hr', c', hc', hchanged, rfl⟩, hkey⟩
      obtain ⟨rfl, rfl⟩ := (ofKey_eventWord s.cfg _ hr' hc').mp hkey
      exact ⟨hchanged, rfl⟩
    · rintro ⟨hchanged, rfl⟩
      exact ⟨⟨r, hr, c, hc, hchanged, rfl⟩, (ofKey_eventWord s.cfg _ hr hc).mpr ⟨rfl, rfl⟩⟩
  cases hevent : keyEvent s r c with
  | none =>
    refine List.eq_nil_iff_forall_not_mem.mpr fun e he => ?_
    rw [hmem, hevent] at he
    cases he
  | some e =>
    refine List.perm_singleton.mp ((List.perm_ext_iff_of_nodup ((debounceEvents_nodup s).filter _)
      (List.nodup_singleton e)).mpr fun e' => ?_)
    rw [hmem, hevent, List.mem_singleton, Option.some_inj, eq_comm]

/-! ### One front part of a tick (R260) -/

/-- What the comparator of the key at (r, c) makes of the matrix that the next scan sees. -/
def scannedKey (s : State) (r c : Nat) : KeyUpdate :=
  keyUpdate s.cfg.debounceN (keyReads (scanAnswer s) r r c) (gridAt s.stable r c) (gridAt s.prevRaw r c)
    (gridAt s.cnt r c)

/-- With working pins and a long enough settle delay, a front part runs the comparator of each key on what the key reads,
hands over its event if there is one, and leaves the queue drained. -/
theorem execAll_tickFront {s : State} (hinv : Inv s) (hf : s.fault = 0) (hq : s.evq = []) (hpins : PinsWork s)
    (hsettles : SettlesInTime s.cfg.toParams) {r c : Nat} (hr : r < s.cfg.rows) (hc : c < s.cfg.cols) :
    ∃ t new, execAll (tickFront s.cfg.toParams) s = .next t ∧ t.fault = 0 ∧ t.evq = [] ∧
      t.scanScript = s.scanScript.tail ∧ gridAt t.stable r c = (scannedKey s r c).stable ∧
      gridAt t.cnt r c = (scannedKey s r c).cnt ∧ t.outEv = s.outEv ++ new ∧
      new.filter (ofKey r c) =
        if (scannedKey s r c).fired then [eventWord (scannedKey s r c).stable r c] else [] := by
  obtain ⟨u, hscan, -, hmatrix, hframe⟩ :=
    settledScanRecordsTheMatrix s hf hpins hsettles hinv.shapes.rowOut hinv.shapes.resid
  have hcfg : u.cfg = s.cfg := by rw [hframe]
  have huf : u.fault = 0 := by rw [hframe]; exact hf
  have huq : u.evq = [] := by rw [hframe]; exact hq
  have hkey : keyUpdateAt u r c = scannedKey s r c := by
    rw [keyUpdateAt, hmatrix r hr c hc, hframe]
    rfl
  obtain ⟨t, hdrain, hdrained, houtEv, hrunning, -, hstable, -, hcnt, -, -, hscript, -⟩ :=
    evdrainEmptiesTheQueue (debounceAll u) huf (debounceEvents_length u)
  rw [← hcfg] at hr hc
  obtain ⟨hstableAt, -, hcntAt⟩ := debounceAll_at u hr hc
  refine ⟨t, debounceEvents u, ?run, hrunning, hdrained, ?answers, ?stable, ?cnt, ?outEv, ?events⟩
  case run =>
    simp only [tickFront, List.cons_append, List.nil_append, execAll, hscan, exec_debounce_drained huf huq]
    rw [← hcfg]
    exact hdrain
  case answers => rw [hscript, debounceAll, hframe]
  case stable => rw [hstable, hstableAt, hkey]
  case cnt => rw [hcnt, hcntAt, hkey]
  case outEv => rw [houtEv, debounceAll, hframe]
  case events =>
    rw [debounceEvents_filter_ofKey u hr hc, keyEvent, hkey]
    split <;> rfl

/-! ### A run of scans that see the key changed (R153, R155, R159) -/

/-- Every scan lined up works and sees the key at (r, c) as `raw`, the opposite of its stable state. -/
structure SeesChange (s : State) (r c : Nat) (raw : Bool) : Prop where
  settles : SettlesInTime s.cfg.toParams
  row : r < s.cfg.rows
  col : c < s.cfg.cols
  answers : ∀ a ∈ s.scanScript, a.failAt = none ∧ keyReads a r r c = raw
  differs : raw ≠ gridAt s.stable r c

/-- The block at `t`, `n` front parts after `s`: below DEBOUNCE_N scans the key's count is `n`, and from there on the change
is confirmed, by one event in all. -/
structure AfterDifferingScans (s : State) (r c : Nat) (raw : Bool) (n : Nat) (t : State) : Prop where
  inv : Inv t
  cfg : t.cfg = s.cfg
  running : t.fault = 0
  drained : t.evq = []
  answers : t.scanScript = s.scanScript.drop n
  counting : n < s.cfg.debounceN → gridAt t.stable r c = gridAt s.stable r c ∧ (gridAt t.cnt r c).toNat = n
  confirmed : s.cfg.debounceN ≤ n → gridAt t.stable r c = raw ∧ gridAt t.cnt r c = 0
  events : ∃ new, t.outEv = s.outEv ++ new ∧
    new.filter (ofKey r c) = if s.cfg.debounceN ≤ n then [eventWord raw r c] else []

theorem AfterDifferingScans.start {s : State} {r c : Nat} (raw : Bool) (hinv : Inv s) (hf : s.fault = 0)
    (hq : s.evq = []) (hcnt : gridAt s.cnt r c = 0) : AfterDifferingScans s r c raw 0 s := by
  have hpos : ¬ s.cfg.debounceN ≤ 0 := Nat.not_le.mpr (config_bounds s.cfg).2.2.1.1
  refine ⟨hinv, rfl, hf, hq, rfl, fun _ => ⟨rfl, ?_⟩, fun h => absurd h hpos, [], ?_, ?_⟩
  · rw [hcnt]
    rfl
  · rw [List.append_nil]
  · rw [if_neg hpos, List.filter_nil]

section Run

variable {s t : State} {r c n : Nat} {raw : Bool}

/-- The answers of the next scan are among those lined up. -/
theorem AfterDifferingScans.scanAnswer_mem (h : AfterDifferingScans s r c raw n t) (hn : n < s.scanScript.length) :
    scanAnswer t ∈ s.scanScript := by
  rw [scanAnswer, h.answers, List.drop_eq_getElem_cons hn]
  exact List.getElem_mem hn

/-- The comparator at the next scan: it counts, confirms at the DEBOUNCE_N-th, and then rests. -/
theorem AfterDifferingScans.scannedKey_eq (h : AfterDifferingScans s r c raw n t) (hs : SeesChange s r c raw)
    (hread : keyReads (scanAnswer t) r r c = raw) :
    (n + 1 < s.cfg.debounceN → scannedKey t r c =
      { stable := gridAt s.stable r c, prevRaw := raw, cnt := gridAt t.cnt r c + 1, fired := false }) ∧
    (n + 1 = s.cfg.debounceN → scannedKey t r c = { stable := raw, prevRaw := raw, cnt := 0, fired := true }) ∧
    (s.cfg.debounceN ≤ n → scannedKey t r c = { stable := raw, prevRaw := raw, cnt := 0, fired := false }) := by
  have hmax := (config_bounds s.cfg).2.2.1.2
  have hzero := h.inv.counters.cntZero r (h.cfg ▸ hs.row) c (h.cfg ▸ hs.col)
  rw [scannedKey, hread, h.cfg]
  have hcounting (hn : n < s.cfg.debounceN) : keyUpdate s.cfg.debounceN raw (gridAt t.stable r c)
      (gridAt t.prevRaw r c) (gridAt t.cnt r c) =
        if s.cfg.debounceN ≤ n + 1 then { stable := raw, prevRaw := raw, cnt := 0, fired := true }
        else { stable := gridAt s.stable r c, prevRaw := raw, cnt := gridAt t.cnt r c + 1, fired := false } := by
    obtain ⟨hstable, hcnt⟩ := h.counting hn
    rw [hstable] at hzero ⊢
    rw [keyUpdate_differs hmax (by omega) hzero hs.differs, hcnt]
  refine ⟨fun hlt => ?_, fun heq => ?_, fun hle => ?_⟩
  · rw [hcounting (by omega), if_neg (by omega)]
  · rw [hcounting (by omega), if_pos (by omega)]
  · rw [(h.confirmed hle).1, keyUpdate_same]

/-- One more front part. -/
theorem AfterDifferingScans.next (h : AfterDifferingScans s r c raw n t) (hs : SeesChange s r c raw)
    (hn : n < s.scanScript.length) :
    ∃ t', execAll (tickFront s.cfg.toParams) t = .next t' ∧ AfterDifferingScans s r c raw (n + 1) t' := by
  obtain ⟨hworks, hread⟩ := hs.answers _ (h.scanAnswer_mem hn)
  have hpins : PinsWork t := fun k hk => by
    rw [hworks] at hk
    cases hk
  obtain ⟨t', fresh, hrun, hrunning, hdrained, hscript, hstable, hcnt, houtEv, hfresh⟩ :=
    execAll_tickFront h.inv h.running h.drained hpins (h.cfg ▸ hs.settles) (h.cfg ▸ hs.row) (h.cfg ▸ hs.col)
  obtain ⟨hcounts, hconfirms, hrests⟩ := h.scannedKey_eq hs hread
  obtain ⟨new, hout, hnew⟩ := h.events
  rw [h.answers, List.tail_drop] at hscript
  rw [hout, List.append_assoc] at houtEv
  refine ⟨t', h.cfg ▸ hrun, inv_execAll hrun h.inv, (execAll_cfg hrun).trans h.cfg, hrunning, hdrained, hscript,
    fun hlt => ?counting, fun hle => ?confirmed, new ++ fresh, houtEv, ?events⟩
  case counting =>
    rw [hstable, hcnt, hcounts hlt]
    refine ⟨rfl, ?_⟩
    have hmax := (config_bounds s.cfg).2.2.1.2
    rw [BitVec.toNat_add, (h.counting (by omega)).2]
    exact Nat.mod_eq_of_lt (by simp; omega)
  case confirmed =>
    rw [hstable, hcnt]
    rcases Nat.eq_or_lt_of_le hle with heq | hlt
    · rw [hconfirms heq.symm]
      exact ⟨rfl, rfl⟩
    · rw [hrests (by omega)]
      exact ⟨rfl, rfl⟩
  case events =>
    rw [List.filter_append, hnew, hfresh]
    rcases Nat.lt_trichotomy (n + 1) s.cfg.debounceN with hlt | heq | hgt
    · rw [hcounts hlt, if_neg Bool.false_ne_true, if_neg (by omega), if_neg (by omega)]
      rfl
    · rw [hconfirms heq, if_pos rfl, if_neg (by omega), if_pos (by omega)]
      rfl
    · rw [hrests (by omega), if_neg Bool.false_ne_true, if_pos (by omega), if_pos (by omega)]
      rfl

end Run

/-- Front part by front part, as long as there are answers lined up. -/
theorem execAll_differingScans {s : State} {r c : Nat} {raw : Bool} (hs : SeesChange s r c raw)
    (hstart : AfterDifferingScans s r c raw 0 s) (n : Nat) (hn : n ≤ s.scanScript.length) :
    ∃ t, execAll (List.replicate n (tickFront s.cfg.toParams)).flatten s = .next t ∧
      AfterDifferingScans s r c raw n t := by
  induction n with
  | zero => exact ⟨s, rfl, hstart⟩
  | succ n ih =>
    obtain ⟨t, ht, h⟩ := ih (Nat.le_of_succ_le hn)
    obtain ⟨t', hnext, h'⟩ := h.next hs hn
    refine ⟨t', ?_, h'⟩
    rw [List.replicate_succ', List.flatten_concat, execAll_append ht, hnext]

/-- Settles O18: the run takes as many front parts as there are answers lined up. -/
theorem changeIsConfirmedAtTheNthDifferingScan : Obligations.ChangeIsConfirmedAtTheNthDifferingScan := by
  intro s r c raw hinv hf hq hsettles hr hc hanswers hcnt hdiffers
  obtain ⟨t, ht, h⟩ := execAll_differingScans ⟨hsettles, hr, hc, hanswers, hdiffers⟩
    (AfterDifferingScans.start raw hinv hf hq hcnt) s.scanScript.length (Nat.le_refl _)
  obtain ⟨new, hout, hnew⟩ := h.events
  have hempty : t.scanScript = [] := by rw [h.answers, List.drop_length]
  exact ⟨t, new, ht, h.running, h.drained, hempty, h.counting, h.confirmed, hout, hnew⟩

end Sys2Proof.Machine
end

section
/-! The animators against each other (spec/44_tick_sequence.md rule R265) and the display's timeout
(spec/43_display_animator.md rule R245). -/

namespace Sys2Proof.Machine

/-! ### LED and display operations commute (R161, R265) -/

/-- The three units' sides and the inputs lined up are the whole state. -/
theorem state_eq_of_sides {s t : State} (hkey : keySide s = keySide t) (hled : ledSide s = ledSide t)
    (hdisplay : displaySide s = displaySide t) (hinputs : s.inputs = t.inputs) : s = t := by
  cases s
  cases t
  simp only [keySide, KeySide.mk.injEq] at hkey
  simp only [ledSide, LedSide.mk.injEq] at hled
  simp only [displaySide, DisplaySide.mk.injEq] at hdisplay
  obtain ⟨rfl, rfl, rfl, rfl, rfl, rfl, rfl, rfl, rfl, rfl, rfl, rfl, rfl⟩ := hkey
  obtain ⟨-, rfl, rfl, rfl, rfl, rfl, rfl, rfl, rfl, rfl⟩ := hled
  obtain ⟨-, rfl, rfl, rfl, rfl⟩ := hdisplay
  cases hinputs
  rfl

theorem effect_inputs (i : Instr) (s : State) : (effect i s).inputs = s.inputs := by
  obtain ⟨u, hu⟩ := effect_eq_writtenBy i s
  rw [hu]
  exact (writtenBy_inputs_cfg i s u).1

/-- The keypress strobe apart, only the display animator's operations touch the display side (R6, R56). -/
theorem effect_displaySide {i : Instr} (he : i ≠ .evpop) (hd : isDisplayOp i = false) (s : State) :
    displaySide (effect i s) = displaySide s := by
  obtain ⟨u, hu⟩ := effect_eq_writtenBy i s
  rw [hu]
  exact writtenBy_displaySide i s u he hd

/-- No operation belongs to both animators, and neither has `EVPOP`. -/
theorem isLedOp_disjoint {i : Instr} (h : isLedOp i = true) : i ≠ .evpop ∧ isDisplayOp i = false := by
  cases i with
  | ltick | lkey | lframe | lmode => exact ⟨nofun, rfl⟩
  | scan | debounce | evpop | dtick | dkey => cases h

theorem isDisplayOp_disjoint {i : Instr} (h : isDisplayOp i = true) : i ≠ .evpop ∧ isLedOp i = false := by
  cases i with
  | dtick | dkey => exact ⟨nofun, rfl⟩
  | scan | debounce | evpop | ltick | lkey | lframe | lmode => cases h

/-- Each of the two stays within its own side and leaves the other's alone. -/
theorem effect_comm {a b : Instr} (ha : isLedOp a = true) (hb : isDisplayOp b = true) (s : State) :
    effect b (effect a s) = effect a (effect b s) := by
  obtain ⟨haPop, haDisplay⟩ := isLedOp_disjoint ha
  obtain ⟨hbPop, hbLed⟩ := isDisplayOp_disjoint hb
  refine state_eq_of_sides ?key ?led ?display ?inputs
  case key =>
    rw [effect_keySide (.inr hb), effect_keySide (.inl ha), effect_keySide (.inl ha), effect_keySide (.inr hb)]
  case led =>
    rw [effect_ledSide hbPop hbLed]
    exact effect_within_ledSide haPop (effect_ledSide hbPop hbLed s).symm
  case display =>
    rw [effect_displaySide haPop haDisplay]
    exact effect_within_displaySide hbPop (effect_displaySide haPop haDisplay s)
  case inputs => simp only [effect_inputs]

/-- An operation of an animator runs without a fault, so the one after it runs too. -/
theorem execAll_pair {i j : Instr} {s : State} (hf : s.fault = 0) (hi : isLedOp i = true ∨ isDisplayOp i = true) :
    execAll [i, j] s = .next (effect j (effect i s)) := by
  have hf' : (effect i s).fault = 0 := (congrArg KeySide.fault (effect_keySide hi s)).trans hf
  rw [execAll_cons_running hf, execAll_cons_running hf', execAll]

/-- Settles O50: a halted block ignores both, and on a running one their effects commute. -/
theorem ledAndDisplayOperationsCommute : Obligations.LedAndDisplayOperationsCommute := by
  intro a b s ha hb
  by_cases hf : s.fault = 0
  · refine ⟨_, execAll_pair hf (.inl ha), ?_⟩
    rw [execAll_pair hf (.inr hb), effect_comm ha hb]
  · exact ⟨s, execAll_halted hf, execAll_halted hf⟩

/-! ### The display since a keypress (R240 to R245) -/

/-- The display at `t`, `n` `DTICK`s after the keypress that left `u` and with no keypress since. -/
structure SinceKeypress (u : State) (n : Nat) (t : State) : Prop where
  dlast : t.dlast = u.dlast
  elapsed : (t.dcnt - u.dlast).toNat = n
  before : n < u.cfg.displayTimeout → t.sprite = u.sprite ∧ t.outDraw = u.outDraw
  timeout : n = u.cfg.displayTimeout → t.sprite = .idle ∧ t.outDraw = u.outDraw ++ [.idle]

theorem SinceKeypress.of_displaySide {u t t' : State} {n : Nat} (h : SinceKeypress u n t)
    (hside : displaySide t' = displaySide t) : SinceKeypress u n t' := by
  cases t
  cases t'
  simp only [displaySide, DisplaySide.mk.injEq] at hside
  obtain ⟨-, rfl, rfl, rfl, rfl⟩ := hside
  exact { h with }

/-- Right after the keypress the time noted is the present one, and the timeout is still to come (R15). -/
theorem SinceKeypress.start {u : State} (h : u.dlast = u.dcnt) : SinceKeypress u 0 u where
  dlast := rfl
  elapsed := by simp [h]
  before := fun _ => ⟨rfl, rfl⟩
  timeout := fun h0 => by
    have hpos := (config_bounds u.cfg).2.2.2.2.2.2.1
    omega

/-- One more `DTICK` up to the timeout: the difference does not wrap, and equals the timeout only there (R241, R242). -/
theorem SinceKeypress.dtick {u t : State} {n : Nat} (h : SinceKeypress u n t) (hcfg : t.cfg = u.cfg)
    (hn : n < u.cfg.displayTimeout) : SinceKeypress u (n + 1) (dtick t) := by
  obtain ⟨hdlast, helapsed, hbefore, -⟩ := h
  obtain ⟨hsprite, hdraw⟩ := hbefore hn
  have hmax := (config_bounds u.cfg).2.2.2.2.2.2.2
  have hcount : (t.dcnt + 1 - u.dlast).toNat = n + 1 := by
    have hassoc : t.dcnt + 1 - u.dlast = t.dcnt - u.dlast + 1 := by bv_omega
    rw [hassoc, BitVec.toNat_add, helapsed]
    exact Nat.mod_eq_of_lt (by simp; omega)
  have htimedOut : timedOut { t with dcnt := t.dcnt + 1 } = (n + 1 == u.cfg.displayTimeout) := by
    rw [timedOut, hdlast, hcount, hcfg]
  by_cases hat : n + 1 = u.cfg.displayTimeout
  · have hshow : Machine.dtick t = showSprite .idle { t with dcnt := t.dcnt + 1 } :=
      if_pos (by rw [htimedOut, beq_iff_eq]; exact hat)
    rw [hshow]
    exact ⟨hdlast, hcount, fun hlt => by omega, fun _ => ⟨rfl, congrArg (· ++ [Sprite.idle]) hdraw⟩⟩
  · have hquiet : Machine.dtick t = { t with dcnt := t.dcnt + 1 } :=
      if_neg (by rw [htimedOut, beq_iff_eq]; exact hat)
    rw [hquiet]
    exact ⟨hdlast, hcount, fun _ => ⟨hsprite, hdraw⟩, fun heq => absurd heq hat⟩

/-- The operation is a keypress to the display: `DKEY`, or an `EVPOP` whose head of the queue is a Press (R161). -/
def IsKeypress (i : Instr) (s : State) : Prop :=
  i = .dkey ∨ (i = .evpop ∧ headKind s = some true)

/-- The display reacts to a strobe of `EVPOP` exactly as to `DKEY` (R161, R240). -/
theorem effect_keypress_displaySide {i : Instr} {s : State} (h : IsKeypress i s) :
    displaySide (effect i s) = displaySide (displayKeypress s) := by
  rcases h with rfl | ⟨rfl, hk⟩
  · rfl
  · rw [effect, (evpop_animatorSides s).2, if_pos hk]

theorem effect_keypress_fault {i : Instr} {s : State} (h : IsKeypress i s) : (effect i s).fault = s.fault := by
  rcases h with rfl | ⟨rfl, -⟩
  · rfl
  · exact effect_fault (i := .evpop) nofun nofun s

/-- Without a keypress only `DTICK` touches the display (R56). -/
theorem effect_noKeypress_displaySide {i : Instr} {s : State} (hd : i ≠ .dtick) (h : ¬ IsKeypress i s) :
    displaySide (effect i s) = displaySide s := by
  by_cases he : i = .evpop
  · subst he
    rw [effect, (evpop_animatorSides s).2, if_neg fun hk => h (.inr ⟨rfl, hk⟩)]
  · have hdisplay : isDisplayOp i = false := by
      cases i with
      | dtick => exact absurd rfl hd
      | dkey => exact absurd (.inl rfl) h
      | _ => rfl
    exact effect_displaySide he hdisplay s

/-- An `EVPOP` that takes a Press hands it over (R160). -/
theorem evpop_press_outEv {s : State} (h : headKind s = some true) :
    ∃ e, (evpop s).outEv = s.outEv ++ [e] ∧ eventIsPress e = true := by
  obtain ⟨e, he, hpress⟩ := Option.map_eq_some_iff.mp h
  have houtEv : (evpop s).outEv = s.outEv ++ s.evq.take 1 := by rw [evpop_frame]
  refine ⟨e, ?_, hpress⟩
  rw [houtEv, List.take_one, he]
  rfl

/-- A run without a fault, a `DKEY` or a Press handed over, and with no more `DTICK`s than the timeout. -/
theorem sinceKeypress_execAll {u : State} (hstart : u.dlast = u.dcnt) (is : List Instr) {t : State}
    (h : execAll is u = .next t) (ht : t.fault = 0) (hkeys : .dkey ∉ is)
    (hevents : ∀ e ∈ t.outEv.drop u.outEv.length, eventIsPress e = false)
    (hticks : is.count .dtick ≤ u.cfg.displayTimeout) : SinceKeypress u (is.count .dtick) t := by
  induction is using List.reverseRecOn generalizing t with
  | nil =>
    cases h
    exact SinceKeypress.start hstart
  | append_singleton is i ih =>
    obtain ⟨v, hv, hvf, rfl⟩ := execAll_concat h ht
    obtain ⟨hkeys, hkey⟩ : .dkey ∉ is ∧ .dkey ≠ i := by simpa using hkeys
    obtain ⟨hev, -, -⟩ := execAll_tracesGrow hv
    have hgrow : v.outEv <+: (effect i v).outEv := (effect_tracesGrow i v).1
    have hsince (hcount : is.count .dtick ≤ u.cfg.displayTimeout) : SinceKeypress u (is.count .dtick) v :=
      ih hv hvf hkeys (fun e he => hevents e ((hgrow.drop _).subset he)) hcount
    rw [List.count_append, List.count_singleton] at hticks ⊢
    by_cases hd : i = .dtick
    · rw [hd, beq_self_eq_true, if_pos rfl] at hticks ⊢
      exact (hsince (by omega)).dtick (execAll_cfg hv) hticks
    · have hquiet : ¬ IsKeypress i v := by
        rintro (rfl | ⟨rfl, hk⟩)
        · exact hkey rfl
        · obtain ⟨e, hout, hpress⟩ := evpop_press_outEv hk
          have hmem : e ∈ (evpop v).outEv.drop u.outEv.length := by
            rw [hout, List.drop_append_of_le_length hev.length_le]
            exact List.mem_append_right _ (List.mem_singleton_self e)
          have hrelease := hevents e hmem
          rw [hpress] at hrelease
          cases hrelease
      rw [if_neg (by simpa using hd), Nat.add_zero] at hticks ⊢
      exact (hsince hticks).of_displaySide (effect_noKeypress_displaySide hd hquiet)

/-- Settles O41: what the keypress leaves starts the count of `sinceKeypress_execAll`; the animators' operations leave the
key side, and so `FAULT` and the trace of events, alone. -/
theorem idleReturnsExactlyAtTheTimeout : Obligations.IdleReturnsExactlyAtTheTimeout := by
  intro s u keypress is hf hkeypress hexec hkeys hticks
  have hpressed : IsKeypress keypress s := by
    rcases hkeypress with hdkey | ⟨hpop, e, he, hpress⟩
    · exact .inl hdkey
    · exact .inr ⟨hpop, Option.map_eq_some_iff.mpr ⟨e, he, hpress⟩⟩
  have hu : u = effect keypress s := by
    rw [exec_running hf] at hexec
    cases hexec
    rfl
  have hcfg : u.cfg = s.cfg := by rw [hu, effect_cfg]
  have hside : displaySide u = displaySide (displayKeypress s) := by rw [hu, effect_keypress_displaySide hpressed]
  have hdlast : u.dlast = s.dcnt := congrArg DisplaySide.dlast hside
  have hdcnt : u.dcnt = s.dcnt := congrArg DisplaySide.dcnt hside
  have hrunning : u.fault = 0 := by
    rw [hu, effect_keypress_fault hpressed, hf]
  obtain ⟨t, ht⟩ := execAll_next is u
  refine ⟨t, ht, fun his => ?animators, fun hft hevents => ?timeout⟩
  case animators =>
    have hanimators : ∀ i ∈ is, isLedOp i = true ∨ isDisplayOp i = true := by
      intro i hi
      rcases his i hi with rfl | hled
      · exact .inr rfl
      · exact .inl hled
    have hkeySide := execAll_keySide hanimators ht
    exact ⟨(congrArg KeySide.fault hkeySide).trans hrunning, congrArg KeySide.outEv hkeySide⟩
  case timeout =>
    obtain ⟨hlast, helapsed, hbefore, htimeout⟩ :=
      sinceKeypress_execAll (hdlast.trans hdcnt.symm) is ht hft hkeys hevents (hcfg ▸ hticks)
    rw [hdlast] at hlast helapsed
    rw [hcfg] at hbefore htimeout
    exact ⟨hlast, helapsed, hbefore, htimeout⟩

end Sys2Proof.Machine
end

section
/-! The colours, the fade and one LED at a time (spec/42_led_animator.md rules R180 to R183, R205): what each primitive of
the LED animator shows at one index, said once for the operations below. -/

namespace Sys2Proof.Machine

/-! ### The wheel (R180, R182) -/

/-- In each segment the named channel is 0 and the other two sum to 255 (R182 (b), (c)). -/
theorem wheel_channels (p : Byte) :
    (p.toNat < 85 → (wheel p).g = 0 ∧ (wheel p).r.toNat + (wheel p).b.toNat = 255) ∧
    (85 ≤ p.toNat ∧ p.toNat < 170 → (wheel p).r = 0 ∧ (wheel p).g.toNat + (wheel p).b.toNat = 255) ∧
    (170 ≤ p.toNat → (wheel p).b = 0 ∧ (wheel p).r.toNat + (wheel p).g.toNat = 255) := by
  obtain ⟨hfirst, hsecond, hthird⟩ := wheel_segments p
  have hp : p.toNat < 256 := p.isLt
  refine ⟨fun h => ?_, fun ⟨h, h'⟩ => ?_, fun h => ?_⟩
  · rw [hfirst h]
    exact ⟨rfl, by simp only [BitVec.toNat_ofNat]; omega⟩
  · rw [hsecond h h']
    exact ⟨rfl, by simp only [BitVec.toNat_ofNat]; omega⟩
  · rw [hthird h]
    exact ⟨rfl, by simp only [BitVec.toNat_ofNat]; omega⟩

/-- Black has no two channels that sum to 255 (R182 (d)). -/
theorem wheel_ne_black (p : Byte) : wheel p ≠ Rgb.black := by
  obtain ⟨hfirst, hsecond, hthird⟩ := wheel_channels p
  intro hblack
  simp only [hblack, Rgb.black, BitVec.ofNat_eq_ofNat, BitVec.toNat_ofNat] at hfirst hsecond hthird
  omega

/-- Settles O22: the segments by `wheel_channels`, the boundary values by evaluating the wheel. -/
theorem wheelTracesTheHueCycle : Obligations.WheelTracesTheHueCycle := by
  refine ⟨fun p => ?segments, rfl, rfl, rfl, rfl, rfl, rfl, rfl, rfl, rfl, rfl⟩
  obtain ⟨hfirst, hsecond, hthird⟩ := wheel_channels p
  exact ⟨hfirst, hsecond, hthird, wheel_ne_black p⟩

/-! ### The fade (R183) -/

theorem satSub_zero (a : Byte) : satSub a 0 = a :=
  BitVec.eq_of_toNat_eq (by rw [satSub_toNat]; rfl)

theorem fade_zero (t : Rgb) : fade t 0 = t := by
  simp only [fade, satSub_zero]

theorem fade_black (d : Byte) : fade Rgb.black d = Rgb.black := by
  have hzero : satSub 0 d = 0 := BitVec.eq_of_toNat_eq (by rw [satSub_toNat]; exact Nat.zero_sub _)
  simp only [fade, Rgb.black, hzero]

theorem fade_toNat (t : Rgb) (d : Byte) :
    (fade t d).r.toNat = t.r.toNat - d.toNat ∧ (fade t d).g.toNat = t.g.toNat - d.toNat ∧
    (fade t d).b.toNat = t.b.toNat - d.toNat :=
  ⟨satSub_toNat _ _, satSub_toNat _ _, satSub_toNat _ _⟩

/-- After `n` fades each channel is lower by `n` decrements, or 0. -/
theorem fade_iterate_toNat (t : Rgb) (d : Byte) (n : Nat) :
    ((fade · d)^[n] t).r.toNat = t.r.toNat - n * d.toNat ∧ ((fade · d)^[n] t).g.toNat = t.g.toNat - n * d.toNat ∧
    ((fade · d)^[n] t).b.toNat = t.b.toNat - n * d.toNat := by
  induction n with
  | zero => simp
  | succ n ih =>
    obtain ⟨hr, hg, hb⟩ := ih
    obtain ⟨hr', hg', hb'⟩ := fade_toNat ((fade · d)^[n] t) d
    rw [Function.iterate_succ_apply', hr', hg', hb', hr, hg, hb, Nat.succ_mul]
    exact ⟨Nat.sub_sub _ _ _, Nat.sub_sub _ _ _, Nat.sub_sub _ _ _⟩

theorem fade_iterate_eq_black (t : Rgb) {d : Byte} {n : Nat} (hd : d ≠ 0) (hn : 255 ≤ n) :
    (fade · d)^[n] t = Rgb.black := by
  have hpos : d.toNat ≠ 0 := fun h => hd (BitVec.eq_of_toNat_eq h)
  have hmul : n ≤ n * d.toNat := Nat.le_mul_of_pos_right n (by omega)
  have hdark (c : Byte) : c.toNat - n * d.toNat = 0 := by
    have hc : c.toNat < 256 := c.isLt
    omega
  obtain ⟨hr, hg, hb⟩ := fade_iterate_toNat t d n
  rw [hdark] at hr hg hb
  rw [Rgb.black, Rgb.mk.injEq]
  exact ⟨BitVec.eq_of_toNat_eq hr, BitVec.eq_of_toNat_eq hg, BitVec.eq_of_toNat_eq hb⟩

/-! ### One LED at a time -/

/-- An LED beyond the strip reads black, which the fade leaves black. -/
theorem ledAt_fadeAll (d : Byte) (s : State) (i : Nat) : ledAt (fadeAll d s) i = fade (ledAt s i) d := by
  simp only [ledAt, fadeAll]
  conv_lhs => rw [← fade_black d]
  exact List.getD_map s.frame Rgb.black (fade · d)

theorem ledAt_writeLed {i : Nat} {s : State} (h : i < s.frame.length) (t : Rgb) (j : Nat) :
    ledAt (writeLed i t s) j = if j = i then t else ledAt s j :=
  getD_set s.frame i j t Rgb.black h

theorem length_frame_fadeAll (d : Byte) (s : State) : (fadeAll d s).frame.length = s.frame.length :=
  List.length_map _

/-- Settles O23. -/
theorem fadeSaturatesAtBlack : Obligations.FadeSaturatesAtBlack :=
  ⟨fade_toNat, fade_zero, fun t _ _ hd hn => fade_iterate_eq_black t hd hn, fun d s i _ => ledAt_fadeAll d s i⟩

/-! ### Chase2's second index (R194, R205) -/

theorem oppositeIndex_lt (p : Config) (i : Nat) : oppositeIndex p.toParams i < p.numLeds :=
  Nat.mod_lt _ (numLeds_pos p)

/-- Going on by less than a full turn does not come back to the start. -/
theorem add_mod_ne_self {n i k : Nat} (hi : i < n) (hk : 0 < k) (hkn : k < n) : (i + k) % n ≠ i := by
  by_cases hwrap : i + k < n
  · rw [Nat.mod_eq_of_lt hwrap]
    omega
  · rw [Nat.mod_eq_sub_mod (by omega), Nat.mod_eq_of_lt (by omega)]
    omega

/-- Half the strip is at least one LED and less than the whole. -/
theorem oppositeIndex_ne {p : Config} {i : Nat} (hi : i < p.numLeds) (hp : 1 < p.numLeds) :
    oppositeIndex p.toParams i ≠ i :=
  add_mod_ne_self hi (by omega) (by omega)

/-- Settles O31; with one LED the only index is 0. -/
theorem chase2IndicesAreDistinct : Obligations.Chase2IndicesAreDistinct := by
  intro p i hi
  have hlt := oppositeIndex_lt p i
  exact ⟨hlt, oppositeIndex_ne hi, fun hone => ⟨by omega, by omega⟩⟩

end Sys2Proof.Machine
end

section
/-! `LMODE` and `LFRAME` (spec/42_led_animator.md rules R184 to R188, R203). -/

namespace Sys2Proof.Machine

/-- A seed is below 256, so the register holds it whole (R186, R207 (f)). -/
theorem rainbowSeed_toNat {p : Params} {i : Nat} (hi : i < p.numLeds) :
    (rainbowSeed p i).toNat = 256 * i / p.numLeds := by
  rw [rainbowSeed, BitVec.toNat_ofNat]
  exact Nat.mod_eq_of_lt (Nat.div_lt_of_lt_mul (by omega))

theorem length_wpos_lmode_rainbow (s : State) : (lmode .rainbow s).wpos.length = s.cfg.numLeds := by
  simp [lmode, seedPositions]

theorem lmode_rainbow_position (s : State) {i : Nat} (hi : i < s.cfg.numLeds) :
    ((lmode .rainbow s).wpos.getD i 0).toNat = 256 * i / s.cfg.numLeds := by
  have hseed : (lmode .rainbow s).wpos.getD i 0 = rainbowSeed s.cfg.toParams i := by
    simp [lmode, seedPositions, hi]
  rw [hseed, rainbowSeed_toNat hi]

/-- Settles O24. -/
theorem rainbowModeSeedsThePositions : Obligations.RainbowModeSeedsThePositions := fun s hf =>
  ⟨lmode .rainbow s, exec_running hf, length_wpos_lmode_rainbow s, fun _ hi => lmode_rainbow_position s hi, rfl⟩

/-- Settles O25: the three initialisers are the same one. -/
theorem otherModesClearTheFrame : Obligations.OtherModesClearTheFrame := by
  intro s m hf hm
  rw [exec_running hf]
  cases m with
  | rainbow => exact absurd rfl hm
  | lightning | chase | chase2 => rfl

/-- Settles O38. -/
theorem frameIsEmittedGreenRedBlue : Obligations.FrameIsEmittedGreenRedBlue := fun _ hf =>
  exec_running hf

end Sys2Proof.Machine
end

section
/-! What the updates and the keypress show (spec/42_led_animator.md rules R189 to R202): the reading rule of each LED
operation at one index, and its frame. -/

namespace Sys2Proof.Machine

/-! ### The dispatch on the mode (R189, R197) -/

theorem updateMode_rainbow {s : State} (h : s.mode = .rainbow) : updateMode s = updateRainbow s := by
  rw [updateMode, h]

theorem updateMode_lightning {s : State} (h : s.mode = .lightning) : updateMode s = updateLightning s := by
  rw [updateMode, h]

theorem updateMode_chase {s : State} (h : s.mode = .chase) : updateMode s = updateChase s := by
  rw [updateMode, h]

theorem updateMode_chase2 {s : State} (h : s.mode = .chase2) : updateMode s = updateChase2 s := by
  rw [updateMode, h]

theorem ledKeypress_ignored {s : State} (h : s.mode = .rainbow ∨ s.mode = .chase2) : ledKeypress s = s := by
  unfold ledKeypress
  rcases h with h | h <;> rw [h]

theorem ledKeypress_lightning {s : State} (h : s.mode = .lightning) : ledKeypress s = keypressLightning s := by
  rw [ledKeypress, h]

theorem ledKeypress_chase {s : State} (h : s.mode = .chase) : ledKeypress s = chaseStep s := by
  rw [ledKeypress, h]
  rfl

theorem exec_lkey {s : State} (hf : s.fault = 0) : exec .lkey s = .next (ledKeypress s) :=
  exec_running hf

theorem exec_lkey_chase {s : State} (hf : s.fault = 0) (hmode : s.mode = .chase) :
    exec .lkey s = .next (chaseStep s) := by
  rw [exec_lkey hf, ledKeypress_chase hmode]

/-! ### Lightning's draws (R111, R192) -/

theorem trigger_iff (p : Params) (d : Word) : trigger p d = true ↔ d.toNat % p.lightningOdds = 0 :=
  beq_iff_eq

theorem dim_iff (p : Params) (t : Rgb) : dim p t = true ↔ t.r.toNat < p.dimThresh.toNat :=
  decide_eq_true_iff

/-- An even draw selects the A colour, an odd one the B colour (R111). -/
theorem coin_select {α : Type} (d : Word) (a b : α) :
    (if coin d then b else a) = if d.toNat % 2 = 0 then a else b := by
  have hcoin : coin d = true ↔ ¬ d.toNat % 2 = 0 := by
    rw [coin, BitVec.getLsbD, Nat.testBit_zero, decide_eq_true_iff]
    omega
  simp only [hcoin, ite_not]

theorem updateLightning_quiet {s : State} (h : (drawValue s).toNat % s.cfg.lightningOdds ≠ 0) :
    updateLightning s = fadeAll s.cfg.lfade (afterDraw s) := by
  rw [updateLightning, if_neg (by rwa [trigger_iff])]

theorem updateLightning_triggered {s : State} (h : (drawValue s).toNat % s.cfg.lightningOdds = 0) :
    updateLightning s = fadeAll s.cfg.lfade (lightningFlash (afterDraw s)) := by
  rw [updateLightning, if_pos (by rwa [trigger_iff])]

theorem lightningFlash_bright {s : State} {j : Nat} (hj : j = (drawValue s).toNat % s.cfg.numLeds)
    (h : s.cfg.dimThresh.toNat ≤ (ledAt s j).r.toNat) : lightningFlash s = afterDraw s := by
  subst hj
  exact if_neg (by rw [dim_iff]; exact Nat.not_lt.mpr h)

theorem lightningFlash_dim {s : State} {j : Nat} (hj : j = (drawValue s).toNat % s.cfg.numLeds)
    (h : (ledAt s j).r.toNat < s.cfg.dimThresh.toNat) :
    lightningFlash s = writeLed j
      (if (drawValue (afterDraw s)).toNat % 2 = 0 then s.cfg.flashA else s.cfg.flashB) (afterDraw (afterDraw s)) := by
  subst hj
  rw [← coin_select]
  exact if_pos ((dim_iff _ _).mpr h)

/-! ### `LCNT` beside the rest of the animator (R189, R202) -/

/-- The state with another value of `LCNT`. -/
def withLcnt (n : Half) (s : State) : State := { s with lcnt := n }

theorem ledAt_withLcnt (n : Half) (s : State) (i : Nat) : ledAt (withLcnt n s) i = ledAt s i := rfl

theorem lightningFlash_withLcnt (n : Half) (s : State) :
    lightningFlash (withLcnt n s) = withLcnt n (lightningFlash s) := by
  rcases Nat.lt_or_ge (ledAt s ((drawValue s).toNat % s.cfg.numLeds)).r.toNat s.cfg.dimThresh.toNat with h | h
  · rw [lightningFlash_dim rfl h, lightningFlash_dim (s := withLcnt n s) rfl h]
    rfl
  · rw [lightningFlash_bright rfl h, lightningFlash_bright (s := withLcnt n s) rfl h]
    rfl

theorem updateLightning_withLcnt (n : Half) (s : State) :
    updateLightning (withLcnt n s) = withLcnt n (updateLightning s) := by
  by_cases h : (drawValue s).toNat % s.cfg.lightningOdds = 0
  · rw [updateLightning_triggered h, updateLightning_triggered (s := withLcnt n s) h]
    exact congrArg (fadeAll s.cfg.lfade) (lightningFlash_withLcnt n (afterDraw s))
  · rw [updateLightning_quiet h, updateLightning_quiet (s := withLcnt n s) h]
    rfl

/-- An update neither reads nor writes `LCNT`. -/
theorem updateMode_withLcnt (n : Half) (s : State) : updateMode (withLcnt n s) = withLcnt n (updateMode s) := by
  cases h : s.mode with
  | rainbow => rw [updateMode_rainbow h, updateMode_rainbow (s := withLcnt n s) h]; rfl
  | lightning =>
    rw [updateMode_lightning h, updateMode_lightning (s := withLcnt n s) h, updateLightning_withLcnt]
  | chase => rw [updateMode_chase h, updateMode_chase (s := withLcnt n s) h]; rfl
  | chase2 => rw [updateMode_chase2 h, updateMode_chase2 (s := withLcnt n s) h]; rfl

/-- Nor does the keypress reaction. -/
theorem ledKeypress_withLcnt (n : Half) (s : State) : ledKeypress (withLcnt n s) = withLcnt n (ledKeypress s) := by
  cases h : s.mode with
  | rainbow => rw [ledKeypress_ignored (.inl h), ledKeypress_ignored (s := withLcnt n s) (.inl h)]
  | lightning => rw [ledKeypress_lightning h, ledKeypress_lightning (s := withLcnt n s) h]; rfl
  | chase => rw [ledKeypress_chase h, ledKeypress_chase (s := withLcnt n s) h]; rfl
  | chase2 => rw [ledKeypress_ignored (.inr h), ledKeypress_ignored (s := withLcnt n s) (.inr h)]

/-- Settles O36; a halted block ignores the keypress under either count. -/
theorem keypressNeverTouchesTheTickCounter : Obligations.KeypressNeverTouchesTheTickCounter := by
  intro s t n h
  rcases exec_cases h with ⟨hf, rfl⟩ | ⟨hf, rfl⟩
  · exact ⟨rfl, exec_halted hf⟩
  · have hkept := congrArg State.lcnt (ledKeypress_frame s)
    have hsame : exec .lkey (withLcnt n s) = .next (withLcnt n (ledKeypress s)) := by
      rw [exec_lkey (s := withLcnt n s) hf, ledKeypress_withLcnt]
    exact ⟨hkept, hsame⟩

/-! ### `LTICK` (R189) -/

/-- Settles O26. -/
theorem tickShortOfTheDivisorOnlyCounts : Obligations.TickShortOfTheDivisorOnlyCounts := by
  intro s hf hlt
  rw [exec_running hf]
  exact congrArg Host.Outcome.next (ltick_counts (by rwa [lcnt_succ_toNat hlt.le]))

theorem exec_ltick_due {s : State} (hf : s.fault = 0) (hdue : s.lcnt.toNat + 1 = divisor s.cfg.toParams s.mode) :
    exec .ltick s = .next (withLcnt 0 (updateMode s)) := by
  rw [exec_running hf, ← updateMode_withLcnt]
  exact congrArg Host.Outcome.next (ltick_updates (by rw [lcnt_succ_toNat hdue.le, hdue]))

/-! ### Rainbow (R191) -/

theorem ledAt_updateRainbow {s : State} {i : Nat} (hi : i < s.wpos.length) :
    ledAt (updateRainbow s) i = wheel (s.wpos.getD i 0) :=
  getD_map_of_lt wheel s.wpos i 0 Rgb.black hi

theorem updateRainbow_position {s : State} {i : Nat} (hi : i < s.wpos.length) :
    ((updateRainbow s).wpos.getD i 0).toNat = ((s.wpos.getD i 0).toNat + 1) % 256 := by
  have hadvance : (updateRainbow s).wpos.getD i 0 = s.wpos.getD i 0 + 1 := getD_map_of_lt (· + 1) s.wpos i 0 0 hi
  rw [hadvance, BitVec.toNat_add]
  rfl

/-- Settles O27. -/
theorem rainbowUpdateShowsThenAdvances : Obligations.RainbowUpdateShowsThenAdvances := by
  intro s hf hmode hdue hlen
  refine ⟨withLcnt 0 (updateRainbow s), ?_, (List.length_map _).trans hlen, (List.length_map _).trans hlen,
    fun i hi => ?_, rfl⟩
  · rw [exec_ltick_due hf hdue, updateMode_rainbow hmode]
  · have hi' : i < s.wpos.length := hlen ▸ hi
    exact ⟨ledAt_updateRainbow hi', updateRainbow_position hi'⟩

/-! ### Lightning's update (R192) -/

theorem drawIndex_lt (p : Config) (d : Word) : drawIndex p.toParams d < p.numLeds :=
  Nat.mod_lt _ (numLeds_pos p)

theorem length_frame_lightningFlash (s : State) : (lightningFlash s).frame.length = s.frame.length := by
  unfold lightningFlash
  dsimp only
  split
  · exact List.length_set
  · rfl

theorem length_frame_updateLightning (s : State) : (updateLightning s).frame.length = s.frame.length := by
  unfold updateLightning
  rw [length_frame_fadeAll]
  split
  · exact length_frame_lightningFlash _
  · rfl

/-- Settles O28, one clause for each path of R192: not triggered, triggered at a bright LED, triggered at a dim one. -/
theorem lightningUpdateFlashesADimLedThenFades : Obligations.LightningUpdateFlashesADimLedThenFades := by
  rintro s hf hmode hdue hlen _ _ _ j rfl rfl rfl hj
  refine ⟨withLcnt 0 (updateLightning s), ?_, (length_frame_updateLightning s).trans hlen, fun hquiet => ?quiet,
    fun htrigger hbright => ?bright, fun htrigger hdim => ?dim⟩
  · rw [exec_ltick_due hf hdue, updateMode_lightning hmode]
  case quiet =>
    rw [updateLightning_quiet hquiet]
    exact ⟨fun i _ => ledAt_fadeAll _ (afterDraw s) i, rfl⟩
  case bright =>
    rw [updateLightning_triggered htrigger, lightningFlash_bright hj hbright]
    exact ⟨fun i _ => ledAt_fadeAll _ (afterDraw (afterDraw s)) i, rfl⟩
  case dim =>
    have hlt : j < (afterDraw (afterDraw (afterDraw s))).frame.length := by
      rw [hj]
      exact (drawIndex_lt s.cfg _).trans_eq hlen.symm
    rw [updateLightning_triggered htrigger, lightningFlash_dim hj hdim]
    refine ⟨?_, fun i _ hi => ?_, rfl⟩
    · rw [ledAt_withLcnt, ledAt_fadeAll, ledAt_writeLed hlt, if_pos rfl]
      rfl
    · rw [ledAt_withLcnt, ledAt_fadeAll, ledAt_writeLed hlt, if_neg hi]
      rfl

/-! ### Chase and Chase2 (R193, R194, R196) -/

theorem chaseStep_cidx (s : State) : (chaseStep s).cidx.toNat = (s.cidx.toNat + 1) % s.cfg.numLeds :=
  (chaseIndex_toNat s).1

theorem length_frame_chaseStep (s : State) : (chaseStep s).frame.length = s.frame.length :=
  List.length_set

/-- The step lights the LED the index comes to, with the phase before its advance, and no other (R196). -/
theorem ledAt_chaseStep {s : State} (hlen : s.frame.length = s.cfg.numLeds) (i : Nat) :
    ledAt (chaseStep s) i = if i = (chaseStep s).cidx.toNat then wheel s.cphase else ledAt s i :=
  ledAt_writeLed (s := advanceIndex s) (hlen ▸ nextChaseIndex_lt s) (wheel s.cphase) i

theorem ledAt_updateChase {s : State} (hlen : s.frame.length = s.cfg.numLeds) (i : Nat) :
    ledAt (updateChase s) i =
      fade (if i = (updateChase s).cidx.toNat then wheel s.cphase else ledAt s i) s.cfg.cfade :=
  (ledAt_fadeAll _ _ i).trans (congrArg (fade · s.cfg.cfade) (ledAt_chaseStep hlen i))

/-- Settles O29. -/
theorem chaseUpdateLightsTheNextLedThenFades : Obligations.ChaseUpdateLightsTheNextLedThenFades := by
  intro s hf hmode hdue hlen
  refine ⟨withLcnt 0 (updateChase s), ?_, ?_, chaseStep_cidx s, ?lit, fun i _ hi => ?others, ?frame⟩
  · rw [exec_ltick_due hf hdue, updateMode_chase hmode]
  · exact (length_frame_fadeAll _ _).trans ((length_frame_chaseStep s).trans hlen)
  case lit => exact (ledAt_updateChase hlen _).trans (congrArg (fade · s.cfg.cfade) (if_pos rfl))
  case others => exact (ledAt_updateChase hlen i).trans (congrArg (fade · s.cfg.cfade) (if_neg hi))
  case frame =>
    rw [updateChase, chaseStep_eq]
    rfl

theorem updateChase2_cidx (s : State) : (updateChase2 s).cidx.toNat = (s.cidx.toNat + 1) % s.cfg.numLeds :=
  (chaseIndex_toNat s).1

theorem length_frame_updateChase2 (s : State) : (updateChase2 s).frame.length = s.frame.length := by
  simp [updateChase2_eq]

/-- Both lit LEDs get the one colour, so which of them is written last does not matter (R194). -/
theorem ledAt_updateChase2 {s : State} (hlen : s.frame.length = s.cfg.numLeds) (i : Nat) :
    ledAt (updateChase2 s) i = fade
      (if i = oppositeIndex s.cfg.toParams (updateChase2 s).cidx.toNat ∨ i = (updateChase2 s).cidx.toNat
        then wheel s.cphase else ledAt s i) s.cfg.cfade := by
  have hfirst : (updateChase2 s).cidx.toNat < s.frame.length := hlen ▸ nextChaseIndex_lt s
  have hsecond : oppositeIndex s.cfg.toParams (updateChase2 s).cidx.toNat <
      (writeLed (updateChase2 s).cidx.toNat (wheel s.cphase) s).frame.length := by
    rw [writeLed_frame, List.length_set, hlen]
    exact oppositeIndex_lt s.cfg _
  rw [ite_or, ← ledAt_writeLed hfirst, ← ledAt_writeLed hsecond]
  exact ledAt_fadeAll _ _ i

/-- Settles O30. -/
theorem chase2UpdateLightsTwoLedsThenFades : Obligations.Chase2UpdateLightsTwoLedsThenFades := by
  intro s hf hmode hdue hlen
  refine ⟨withLcnt 0 (updateChase2 s), ?_, (length_frame_updateChase2 s).trans hlen, updateChase2_cidx s, ?first,
    ?second, fun i _ hfirst hsecond => ?others, ?frame⟩
  · rw [exec_ltick_due hf hdue, updateMode_chase2 hmode]
  case first => exact (ledAt_updateChase2 hlen _).trans (congrArg (fade · s.cfg.cfade) (if_pos (.inr rfl)))
  case second => exact (ledAt_updateChase2 hlen _).trans (congrArg (fade · s.cfg.cfade) (if_pos (.inl rfl)))
  case others =>
    exact (ledAt_updateChase2 hlen i).trans (congrArg (fade · s.cfg.cfade) (if_neg (not_or.mpr ⟨hsecond, hfirst⟩)))
  case frame =>
    rw [updateChase2_eq]
    rfl

/-! ### `LKEY` (R197 to R202) -/

/-- Settles O33. -/
theorem lightningKeypressFlashesAtFullValue : Obligations.LightningKeypressFlashesAtFullValue := by
  rintro s hf hmode hlen _ _ rfl rfl
  have hled := ledAt_writeLed (s := afterDraw (afterDraw s)) (hlen ▸ drawIndex_lt s.cfg (drawValue s))
    (if coin (drawValue (afterDraw s)) then s.cfg.kflashB else s.cfg.kflashA)
  refine ⟨keypressLightning s, ?_, List.length_set.trans hlen, ?_, fun i _ hi => ?_, rfl⟩
  · rw [exec_lkey hf, ledKeypress_lightning hmode]
  · rw [← coin_select]
    exact (hled _).trans (if_pos rfl)
  · exact (hled i).trans (if_neg hi)

/-- Settles O34: the step that Chase's update begins with, and no fade. -/
theorem chaseKeypressLightsTheNextLed : Obligations.ChaseKeypressLightsTheNextLed := by
  intro s hf hmode hlen
  exact ⟨chaseStep s, exec_lkey_chase hf hmode, (length_frame_chaseStep s).trans hlen, chaseStep_cidx s,
    (ledAt_chaseStep hlen _).trans (if_pos rfl), fun i _ hi => (ledAt_chaseStep hlen i).trans (if_neg hi), rfl⟩

/-- Settles O37: two steps of the chase, which light two different LEDs unless there is only one. -/
theorem twoChaseKeypressesAdvanceByTwo : Obligations.TwoChaseKeypressesAdvanceByTwo := by
  intro s hf hmode hlen
  have hfirst := chaseStep_cidx s
  have hsecond : (chaseStep (chaseStep s)).cidx.toNat = (s.cidx.toNat + 2) % s.cfg.numLeds := by
    rw [chaseStep_cidx, hfirst]
    exact Nat.mod_add_mod _ _ 1
  have hledFirst := ledAt_chaseStep hlen
  have hledSecond := ledAt_chaseStep (s := chaseStep s) ((length_frame_chaseStep s).trans hlen)
  rw [← hfirst, ← hsecond]
  refine ⟨chaseStep s, chaseStep (chaseStep s), exec_lkey_chase hf hmode, exec_lkey_chase (s := chaseStep s) hf hmode,
    rfl, (hledFirst _).trans (if_pos rfl), wheel_ne_black _, (hledSecond _).trans (if_pos rfl), wheel_ne_black _,
    fun hmany => ?both⟩
  case both =>
    have hapart : (chaseStep s).cidx.toNat ≠ (chaseStep (chaseStep s)).cidx.toNat := by
      rw [chaseStep_cidx (chaseStep s)]
      exact (add_mod_ne_self (nextChaseIndex_lt s) Nat.one_pos hmany).symm
    rw [hledSecond, if_neg hapart, hledFirst, if_pos rfl]

/-- Settles O35: on the LED side the strobe of `EVPOP` is `LKEY`, which these modes ignore. -/
theorem rainbowAndChase2IgnoreKeypresses : Obligations.RainbowAndChase2IgnoreKeypresses := by
  intro s hf hmode
  have hignored := ledKeypress_ignored hmode
  refine ⟨?_, evpop s, exec_running hf, ?_⟩
  · rw [exec_lkey hf, hignored]
  · rw [(evpop_animatorSides s).1, hignored, ite_self]

end Sys2Proof.Machine
end

section
/-! Rate limiting (spec/42_led_animator.md rules R189, R190, R202): how `LCNT` counts the `LTICK`s, on their own and among
other operations, and what the updates they run add up to. -/

namespace Sys2Proof.Machine

/-! ### Several updates one after the other -/

theorem updateMode_keeps (s : State) :
    (updateMode s).fault = s.fault ∧ (updateMode s).cfg = s.cfg ∧ (updateMode s).mode = s.mode ∧
    (updateMode s).lcnt = s.lcnt := by
  rw [updateMode_frame]
  exact ⟨rfl, rfl, rfl, rfl⟩

theorem updateMode_iterate_keeps (q : Nat) (s : State) :
    (updateMode^[q] s).fault = s.fault ∧ (updateMode^[q] s).cfg = s.cfg ∧ (updateMode^[q] s).mode = s.mode := by
  induction q with
  | zero => exact ⟨rfl, rfl, rfl⟩
  | succ q ih =>
    obtain ⟨hfault, hcfg, hmode, -⟩ := updateMode_keeps (updateMode^[q] s)
    rw [Function.iterate_succ_apply', hfault, hcfg, hmode]
    exact ih

/-- An update of Chase or Chase2 advances the index and the phase once (R193, R194). -/
theorem updateMode_chases {s : State} (h : s.mode = .chase ∨ s.mode = .chase2) :
    (updateMode s).cidx.toNat = (s.cidx.toNat + 1) % s.cfg.numLeds ∧
    (updateMode s).cphase = s.cphase + s.cfg.cstep := by
  rcases h with h | h
  · rw [updateMode_chase h]
    exact ⟨chaseStep_cidx s, rfl⟩
  · rw [updateMode_chase2 h]
    exact ⟨updateChase2_cidx s, rfl⟩

theorem updateMode_iterate_chases (q : Nat) {s : State} (h : s.mode = .chase ∨ s.mode = .chase2)
    (hidx : s.cidx.toNat < s.cfg.numLeds) :
    (updateMode^[q] s).cidx.toNat = (s.cidx.toNat + q) % s.cfg.numLeds ∧
    (updateMode^[q] s).cphase.toNat = (s.cphase.toNat + q * s.cfg.cstep.toNat) % 256 := by
  induction q with
  | zero =>
    have hphase : s.cphase.toNat < 256 := s.cphase.isLt
    simp only [Function.iterate_zero, id, Nat.zero_mul, Nat.add_zero, Nat.mod_eq_of_lt hidx, Nat.mod_eq_of_lt hphase,
      and_self]
  | succ q ih =>
    obtain ⟨hcidx, hcphase⟩ := ih
    obtain ⟨-, hcfg, hmode⟩ := updateMode_iterate_keeps q s
    obtain ⟨hcidx', hcphase'⟩ := updateMode_chases (s := updateMode^[q] s) (hmode ▸ h)
    rw [Function.iterate_succ_apply', hcidx', hcphase', hcfg, hcidx, BitVec.toNat_add, hcphase]
    exact ⟨Nat.mod_add_mod _ _ 1, by rw [Nat.mod_add_mod, Nat.succ_mul, Nat.add_assoc]⟩

/-- An update of Rainbow advances every position once (R191). -/
theorem updateMode_iterate_rainbow (q : Nat) {s : State} (h : s.mode = .rainbow) {i : Nat} (hi : i < s.wpos.length) :
    (updateMode^[q] s).wpos.length = s.wpos.length ∧
    ((updateMode^[q] s).wpos.getD i 0).toNat = ((s.wpos.getD i 0).toNat + q) % 256 := by
  induction q with
  | zero => exact ⟨rfl, (Nat.mod_eq_of_lt (s.wpos.getD i 0).isLt).symm⟩
  | succ q ih =>
    obtain ⟨hlen, hposition⟩ := ih
    obtain ⟨-, -, hmode⟩ := updateMode_iterate_keeps q s
    rw [Function.iterate_succ_apply', updateMode_rainbow (hmode.trans h), updateRainbow_position (hlen ▸ hi), hposition]
    exact ⟨(List.length_map _).trans hlen, Nat.mod_add_mod _ _ 1⟩

/-! ### `LTICK`s on their own (R190) -/

/-- What is left of a count beyond the last multiple of a divisor fits `LCNT` (R12). -/
theorem toNat_ofNat_mod_divisor (p : Config) (m : Mode) (n : Nat) :
    (BitVec.ofNat 16 (n % divisor p.toParams m)).toNat = n % divisor p.toParams m := by
  obtain ⟨-, -, -, -, hdivisors, -⟩ := config_bounds p
  obtain ⟨hpos, hmax⟩ := hdivisors m
  have hlt : n % divisor p.toParams m < divisor p.toParams m := Nat.mod_lt _ hpos
  rw [BitVec.toNat_ofNat]
  exact Nat.mod_eq_of_lt (by omega)

/-- The `LTICK` that follows `n` others since `LCNT` was 0 leaves the rest of `n + 1` in `LCNT`, and runs the update if
the rest is 0. -/
theorem ltick_withLcnt {s : State} {k : Nat} (hk : k = divisor s.cfg.toParams s.mode) (n : Nat) :
    ltick (withLcnt (BitVec.ofNat 16 (n % k)) s) =
      withLcnt (BitVec.ofNat 16 ((n + 1) % k)) (if (n + 1) % k = 0 then updateMode s else s) := by
  subst hk
  obtain ⟨hdue, hshort⟩ := ltick_number (s := withLcnt _ s) (toNat_ofNat_mod_divisor s.cfg s.mode n)
  split
  case isTrue hmul =>
    rw [hmul, ← updateMode_withLcnt]
    exact hdue hmul
  case isFalse hmul =>
    obtain ⟨hcounts, hnext⟩ := hshort hmul
    have hsum : BitVec.ofNat 16 ((n + 1) % divisor s.cfg.toParams s.mode) =
        BitVec.ofNat 16 (n % divisor s.cfg.toParams s.mode) + 1 := by
      refine (congrArg (BitVec.ofNat 16) hnext).symm.trans ?_
      rw [BitVec.ofNat_toNat, BitVec.setWidth_eq]
      rfl
    rw [hsum]
    exact hcounts

/-- The quotient by `k` grows by one exactly at the multiples of `k`. -/
theorem iterate_succ_div {α : Type} (f : α → α) (x : α) (n k : Nat) :
    f^[(n + 1) / k] x = if (n + 1) % k = 0 then f (f^[n / k] x) else f^[n / k] x := by
  split
  case isTrue hmul => rw [Nat.succ_div_of_mod_eq_zero hmul, Function.iterate_succ_apply']
  case isFalse hmul => rw [Nat.succ_div_of_mod_ne_zero hmul]

/-- After `n` `LTICK`s from `LCNT` = 0 the updates number `n` by the divisor, and `LCNT` holds the rest. -/
theorem execAll_ltick {s : State} (hf : s.fault = 0) (h0 : s.lcnt = 0) (n : Nat) :
    execAll (List.replicate n .ltick) s =
      .next (withLcnt (BitVec.ofNat 16 (n % divisor s.cfg.toParams s.mode))
        (updateMode^[n / divisor s.cfg.toParams s.mode] s)) := by
  induction n with
  | zero =>
    have hstart : withLcnt 0 s = s := by rw [← h0, withLcnt]
    rw [Nat.zero_mod, Nat.zero_div]
    exact congrArg Host.Outcome.next hstart.symm
  | succ n ih =>
    obtain ⟨hfault, hcfg, hmode⟩ := updateMode_iterate_keeps (n / divisor s.cfg.toParams s.mode) s
    rw [List.replicate_succ', execAll_append ih, execAll_cons_running (by exact hfault.trans hf), execAll, effect,
      ltick_withLcnt (by rw [hcfg, hmode]), iterate_succ_div]

theorem lmode_keeps (m : Mode) (s : State) : (lmode m s).fault = s.fault ∧ (lmode m s).cfg = s.cfg ∧
    (lmode m s).mode = m ∧ (lmode m s).lcnt = 0 ∧ (lmode m s).cidx = 0 ∧ (lmode m s).cphase = 0 := by
  rw [lmode_frame]
  exact ⟨rfl, rfl, rfl, rfl, rfl, rfl⟩

/-- Settles O32: the general count from `execAll_ltick`, and after `LMODE` what that many updates add up to. -/
theorem updatesRunAtEveryKthTick : Obligations.UpdatesRunAtEveryKthTick := by
  refine ⟨fun s n hf h0 => execAll_ltick hf h0 n, fun _ => ⟨rfl, rfl⟩, fun s m n hf => ?_⟩
  obtain ⟨hfault, hcfg, hmode, hlcnt, hcidx, hcphase⟩ := lmode_keeps m s
  have hticks := execAll_ltick (hfault.trans hf) hlcnt n
  rw [hcfg, hmode] at hticks
  obtain ⟨hfault', -, hmode'⟩ := updateMode_iterate_keeps (n / divisor s.cfg.toParams m) (lmode m s)
  refine ⟨lmode m s, _, exec_running hf, hfault.trans hf, hlcnt, hticks, hmode'.trans hmode,
    hfault'.trans (hfault.trans hf), ?count, fun hshort => ?short, fun hchases => ?chases,
    fun hrainbow i hi => ?rainbow⟩
  case count => exact toNat_ofNat_mod_divisor s.cfg m n
  case short => rw [Nat.div_eq_of_lt hshort, Nat.mod_eq_of_lt hshort]; rfl
  case chases =>
    obtain ⟨hindex, hphase⟩ := updateMode_iterate_chases (n / divisor s.cfg.toParams m) (hmode.symm ▸ hchases)
      (s := lmode m s) (by rw [hcidx, hcfg]; exact numLeds_pos s.cfg)
    rw [hcfg] at hindex hphase
    rw [hcidx, BitVec.ofNat_eq_ofNat, BitVec.toNat_zero, Nat.zero_add] at hindex
    rw [hcphase, BitVec.ofNat_eq_ofNat, BitVec.toNat_zero, Nat.zero_add] at hphase
    exact ⟨hindex, hphase⟩
  case rainbow =>
    subst hrainbow
    have hlen := length_wpos_lmode_rainbow s
    obtain ⟨-, hposition⟩ := updateMode_iterate_rainbow (n / divisor s.cfg.toParams .rainbow) hmode (hlen.symm ▸ hi)
    rw [lmode_rainbow_position s hi] at hposition
    exact hposition

/-! ### `LTICK`s among other operations (R202) -/

/-- Only `LTICK` and `LMODE` write `LCNT`, and only `LMODE` writes `MODE` (R56). -/
theorem effect_lcnt_mode {i : Instr} (ht : i ≠ .ltick) (hm : ∀ m, i ≠ .lmode m) (s : State) :
    (effect i s).lcnt = s.lcnt ∧ (effect i s).mode = s.mode := by
  obtain ⟨u, hu⟩ := effect_eq_writtenBy i s
  rw [hu]
  cases i with
  | ltick => exact absurd rfl ht
  | lmode m => exact absurd rfl (hm m)
  | _ => exact ⟨rfl, rfl⟩

theorem ltick_mode (s : State) : (ltick s).mode = s.mode := by
  rw [ltick_frame]

theorem ltick_lcnt {s : State} {n : Nat} (h : s.lcnt.toNat = n % divisor s.cfg.toParams s.mode) :
    (ltick s).lcnt.toNat = (n + 1) % divisor s.cfg.toParams s.mode := by
  obtain ⟨hdue, hshort⟩ := ltick_number h
  by_cases hmul : (n + 1) % divisor s.cfg.toParams s.mode = 0
  · obtain ⟨-, -, -, hlcnt⟩ := updateMode_keeps { s with lcnt := 0 }
    rw [hdue hmul, hlcnt, hmul]
    rfl
  · obtain ⟨hcounts, hnext⟩ := hshort hmul
    rw [hcounts, ← hnext]

/-- `LCNT` counts the `LTICK`s modulo the divisor, whatever runs in between. -/
theorem lcnt_execAll {s t : State} (h0 : s.lcnt = 0) (is : List Instr) (hmodes : ∀ m, .lmode m ∉ is)
    (h : execAll is s = .next t) (ht : t.fault = 0) :
    t.mode = s.mode ∧ t.lcnt.toNat = is.count .ltick % divisor s.cfg.toParams s.mode := by
  induction is using List.reverseRecOn generalizing t with
  | nil =>
    cases h
    exact ⟨rfl, by rw [h0]; exact (Nat.zero_mod _).symm⟩
  | append_singleton is i ih =>
    obtain ⟨v, hv, hvf, rfl⟩ := execAll_concat h ht
    obtain ⟨hmode, hcount⟩ := ih (fun m hm => hmodes m (List.mem_append_left _ hm)) hv hvf
    rw [List.count_append, List.count_singleton]
    by_cases hi : i = .ltick
    · subst hi
      rw [beq_self_eq_true, if_pos rfl]
      rw [← execAll_cfg hv, ← hmode] at hcount ⊢
      exact ⟨ltick_mode v, ltick_lcnt hcount⟩
    · have hother : ∀ m, i ≠ .lmode m := fun m hm => hmodes m (by simp [hm])
      obtain ⟨hlcnt', hmode'⟩ := effect_lcnt_mode hi hother v
      rw [hlcnt', hmode', if_neg (by simpa using hi)]
      exact ⟨hmode, hcount⟩

/-- Settles O53: the next `LTICK` has the number one more than those counted. -/
theorem tickUpdatesExactlyAtMultiplesOfTheDivisor : Obligations.TickUpdatesExactlyAtMultiplesOfTheDivisor := by
  rintro s t is _ h0 hmodes h ht rfl
  have hcfg := execAll_cfg h
  obtain ⟨hmode, hcount⟩ := lcnt_execAll h0 is hmodes h ht
  refine ⟨hcfg, hmode, hcount, ?_⟩
  rw [← hcfg, ← hmode] at hcount ⊢
  obtain ⟨hdue, hshort⟩ := ltick_number hcount
  refine ⟨fun hmul => ?_, fun hmul => ?_⟩
  · rw [exec_running ht, effect, hdue hmul]
  · rw [exec_running ht, effect, (hshort hmul).1]

end Sys2Proof.Machine
end

section
/-! The display animator on its own (spec/43_display_animator.md rules R240 to R248): the state after a keypress and after a
tick, and why comparing for equality shows what comparing with a threshold would. -/

namespace Sys2Proof.Machine

/-! ### The next tap sprite (R240, R243) -/

theorem nextTap_eq_ite (sp : Sprite) : nextTap sp = if sp = .tap1 then .tap2 else .tap1 := by
  cases sp <;> rfl

/-- Settles O39, from the state a keypress leaves. -/
theorem keypressShowsTheNextTapSprite : Obligations.KeypressShowsTheNextTapSprite := by
  rintro s hf sp rfl
  rw [exec_running hf, effect, displayKeypress_eq, nextTap_eq_ite]

/-! ### The comparison of `DTICK` (R241, R242) -/

theorem timedOut_iff (s : State) : timedOut s = true ↔ (s.dcnt - s.dlast).toNat = s.cfg.displayTimeout :=
  beq_iff_eq

theorem dtick_at_timeout {s : State} (h : (s.dcnt + 1 - s.dlast).toNat = s.cfg.displayTimeout) :
    dtick s = { s with dcnt := s.dcnt + 1, sprite := .idle, outDraw := s.outDraw ++ [.idle] } :=
  if_pos ((timedOut_iff { s with dcnt := s.dcnt + 1 }).mpr h)

theorem dtick_off_timeout {s : State} (h : (s.dcnt + 1 - s.dlast).toNat ≠ s.cfg.displayTimeout) :
    dtick s = { s with dcnt := s.dcnt + 1 } :=
  if_neg (mt (timedOut_iff { s with dcnt := s.dcnt + 1 }).mp h)

/-- Settles O40: the incremented counter is `n`, and the two arms of `DTICK` are the two clauses. -/
theorem displayTickComparesTheIncrementedCounter : Obligations.DisplayTickComparesTheIncrementedCounter := by
  intro s n hf hn
  have hcount : s.dcnt + 1 = BitVec.ofNat 32 n := by bv_omega
  have helapsed : (s.dcnt + 1 - s.dlast).toNat = (n + (2 ^ 32 - s.dlast.toNat)) % 2 ^ 32 := by
    rw [hcount, BitVec.toNat_sub, BitVec.toNat_ofNat, Nat.add_comm, Nat.mod_add_mod]
  rw [← helapsed, ← hcount, exec_running hf, effect]
  exact ⟨fun hat => congrArg _ (dtick_at_timeout hat), fun hoff => congrArg _ (dtick_off_timeout hoff)⟩

/-! ### The invariant of the sprite (R246 (c)) -/

theorem SpriteAwaitsTimeout.of_displaySide {s t : State} (h : SpriteAwaitsTimeout s)
    (hside : displaySide t = displaySide s) : SpriteAwaitsTimeout t := by
  have hsprite : t.sprite = s.sprite := congrArg DisplaySide.sprite hside
  have hdcnt : t.dcnt = s.dcnt := congrArg DisplaySide.dcnt hside
  have hdlast : t.dlast = s.dlast := congrArg DisplaySide.dlast hside
  have hcfg : t.cfg = s.cfg := congrArg DisplaySide.cfg hside
  rwa [SpriteAwaitsTimeout, hsprite, hdcnt, hdlast, hcfg]

theorem spriteAwaitsTimeout_of_idle {s : State} (h : s.sprite = .idle) : SpriteAwaitsTimeout s :=
  fun hne => absurd h hne

/-- Right after a keypress no tick has passed, and the timeout is positive (R15). -/
theorem spriteAwaitsTimeout_displayKeypress (s : State) : SpriteAwaitsTimeout (displayKeypress s) := by
  obtain ⟨-, -, -, -, -, -, hpos, -⟩ := config_bounds s.cfg
  intro _
  rw [displayKeypress_eq, BitVec.sub_self]
  exact hpos

/-- The key fact: the next tick takes the difference at most up to the timeout, never past it, wherever the counter wraps. -/
theorem SpriteAwaitsTimeout.next_le {s : State} (h : SpriteAwaitsTimeout s) (hs : s.sprite ≠ .idle) :
    (s.dcnt + 1 - s.dlast).toNat ≤ s.cfg.displayTimeout := by
  have hlt := h hs
  have hsucc : (s.dcnt + 1 - s.dlast).toNat ≤ (s.dcnt - s.dlast).toNat + 1 := by bv_omega
  omega

theorem SpriteAwaitsTimeout.dtick {s : State} (h : SpriteAwaitsTimeout s) : SpriteAwaitsTimeout (dtick s) := by
  by_cases hat : (s.dcnt + 1 - s.dlast).toNat = s.cfg.displayTimeout
  · rw [dtick_at_timeout hat]
    exact spriteAwaitsTimeout_of_idle rfl
  · rw [dtick_off_timeout hat]
    exact fun hs => lt_of_le_of_ne (h.next_le hs) hat

/-- The display reacts to a tick and to a keypress; nothing else touches its side (R56). -/
theorem SpriteAwaitsTimeout.effect {s : State} (h : SpriteAwaitsTimeout s) (i : Instr) :
    SpriteAwaitsTimeout (effect i s) := by
  by_cases hd : i = .dtick
  · subst hd
    exact h.dtick
  · by_cases hk : IsKeypress i s
    · exact (spriteAwaitsTimeout_displayKeypress s).of_displaySide (effect_keypress_displaySide hk)
    · exact h.of_displaySide (effect_noKeypress_displaySide hd hk)

theorem SpriteAwaitsTimeout.step {s t : State} (h : SpriteAwaitsTimeout s) (hstep : step s = .next t) :
    SpriteAwaitsTimeout t := by
  have hinputs (rest : List HostInput) : SpriteAwaitsTimeout { s with inputs := rest } := h.of_displaySide rfl
  rcases step_cases hstep with ⟨_, rfl⟩ | ⟨_, rest, _, _, rfl⟩ | ⟨_, rest, i, _, _, _, rfl⟩ |
    ⟨_, rest, _, _, _, _, rfl⟩ | ⟨_, _, _, _, rfl⟩
  · exact h
  · exact hinputs rest
  · exact (hinputs rest).effect i
  · exact (hinputs rest).of_displaySide rfl
  · exact spriteAwaitsTimeout_of_idle rfl

/-- A sprite that is not Idle is never past the timeout, so there reaching it and being at it are the same. -/
theorem SpriteAwaitsTimeout.dtick_sprite {s : State} (h : SpriteAwaitsTimeout s) :
    (Machine.dtick s).sprite =
      if s.cfg.displayTimeout ≤ (s.dcnt + 1 - s.dlast).toNat then .idle else s.sprite := by
  by_cases hat : (s.dcnt + 1 - s.dlast).toNat = s.cfg.displayTimeout
  · rw [dtick_at_timeout hat, if_pos hat.ge]
  · rw [dtick_off_timeout hat]
    by_cases hs : s.sprite = .idle
    · rw [hs, ite_self]
    · have hbefore := lt_of_le_of_ne (h.next_le hs) hat
      rw [if_neg hbefore.not_ge]

/-- Settles O42: reset shows Idle, every step keeps the invariant, and under it the two comparators agree. -/
theorem thresholdComparatorShowsTheSameSprite : Obligations.ThresholdComparatorShowsTheSameSprite := by
  refine ⟨fun _ => spriteAwaitsTimeout_of_idle rfl, fun _ _ h hstep => h.step hstep, fun s t h hf hexec => ?sprite⟩
  case sprite =>
    rw [exec_running hf] at hexec
    cases hexec
    exact h.dtick_sprite

end Sys2Proof.Machine
end

section
/-! A whole tick (spec/44_tick_sequence.md rules R260 to R269): its front part, a mode switch and its back part one
after the other, and a tick whose custom action is a firmware reset. -/

namespace Sys2Proof.Machine

/-! ### The three parts of a tick (R260) -/

theorem tick_eq_append (p : Params) (m : Option Mode) :
    tick p m = tickFront p ++ (m.toList.map .lmode ++ tickBack) := by
  cases m with
  | none | some => exact List.append_assoc _ _ _

/-- With working pins the front part runs without a fault, drains the queue it fills, and leaves what the rest of the
tick counts and shows. -/
theorem execAll_tickFront_drained {s : State} (hs : Shapes s) (hf : s.fault = 0) (hq : s.evq = [])
    (hpins : PinsWork s) :
    ∃ u, execAll (tickFront s.cfg.toParams) s = .next u ∧ u.fault = 0 ∧ u.evq = [] ∧ u.outLed = s.outLed ∧
      u.dcnt = s.dcnt ∧ u.mode = s.mode := by
  obtain ⟨-, -, -, hscan⟩ := scan_completes_spec s hpins hs.rowOut hs.resid
  have hcfg : (scan s).cfg = s.cfg := effect_cfg .scan s
  have hrunning : (scan s).fault = 0 := by rw [hscan]; exact hf
  have hdrained : (scan s).evq = [] := by rw [hscan]; exact hq
  obtain ⟨u, hdrain, -, hframe⟩ := evpop_run (s.cfg.rows * s.cfg.cols) (debounceAll (scan s)) hrunning
  refine ⟨u, ?run, ?running, ?drained, ?outLed, ?dcnt, ?mode⟩
  case run =>
    simp only [tickFront, List.cons_append, List.nil_append, execAll, exec_running hf, effect,
      exec_debounce_drained hrunning hdrained]
    exact hdrain
  case running => rw [hframe]; exact hrunning
  case drained =>
    rw [hframe]
    exact List.drop_eq_nil_of_le (hcfg ▸ debounceEvents_length (scan s))
  all_goals rw [hframe, debounceAll, hscan]

/-- A mode switch, if the tick has one, sets the mode and leaves the queue, the display's counter and the frames shown
(R264). -/
theorem execAll_modeSwitch {s : State} (hf : s.fault = 0) (m : Option Mode) :
    ∃ t, execAll (m.toList.map .lmode) s = .next t ∧ t.fault = 0 ∧ t.evq = s.evq ∧ t.outLed = s.outLed ∧
      t.dcnt = s.dcnt ∧ t.mode = m.getD s.mode := by
  cases m with
  | none => exact ⟨s, rfl, hf, rfl, rfl, rfl, rfl⟩
  | some m =>
    refine ⟨lmode m s, execAll_cons_running hf, ?_⟩
    rw [lmode_frame]
    exact ⟨hf, rfl, rfl, rfl, rfl⟩

/-- The back part advances both animators by one and then shows the frame (R260). -/
theorem execAll_tickBack {s : State} (hf : s.fault = 0) :
    ∃ t, execAll tickBack s = .next t ∧ t.fault = 0 ∧ t.evq = s.evq ∧
      t.outLed = s.outLed ++ [t.frame.map outTriple] ∧ t.dcnt = s.dcnt + 1 ∧ t.mode = s.mode := by
  have hrunning : (dtick (ltick s)).fault = 0 := by rw [dtick_frame, ltick_frame]; exact hf
  have hrun : execAll tickBack s = .next (lframe (dtick (ltick s))) :=
    (execAll_append (execAll_pair hf (.inl rfl))).trans (execAll_cons_running hrunning)
  refine ⟨_, hrun, hrunning, ?_⟩
  rw [dtick_frame, ltick_frame]
  exact ⟨rfl, rfl, rfl, rfl⟩

/-- Settles O51: part by part, each from where the one before it ends. -/
theorem tickCompletesForADutifulHost : Obligations.TickCompletesForADutifulHost := by
  intro s m hinv hf hq hpins
  obtain ⟨u, hfront, huf, huq, huLed, hudcnt, humode⟩ := execAll_tickFront_drained hinv.shapes hf hq hpins
  obtain ⟨v, hswitch, hvf, hvq, hvLed, hvdcnt, hvmode⟩ := execAll_modeSwitch huf m
  obtain ⟨t, hback, htf, htq, htLed, htdcnt, htmode⟩ := execAll_tickBack hvf
  have hrun : execAll (tick s.cfg.toParams m) s = .next t := by
    rw [tick_eq_append, execAll_append hfront, execAll_append hswitch, hback]
  refine ⟨t, hrun, inv_execAll hrun hinv, htf, ?drained, ?shown, ?counted, ?mode⟩
  case drained => rw [htq, hvq, huq]
  case shown => rw [← huLed, ← hvLed]; exact htLed
  case counted => rw [htdcnt, hvdcnt, hudcnt]
  case mode => rw [htmode, hvmode, humode]

/-! ### A tick that ends in a reset (R264, R320) -/

/-- Whatever it does with it, a step takes the next input. -/
theorem step_inputs {s t : State} (h : step s = .next t) : t.inputs = s.inputs.tail := by
  rcases step_cases h with ⟨hi, rfl⟩ | ⟨_, _, hi, _, rfl⟩ | ⟨_, rest, i, hi, _, _, rfl⟩ |
    ⟨_, _, _, hi, _, _, rfl⟩ | ⟨_, _, hi, _, rfl⟩
  · rw [hi]; rfl
  · rw [hi]; rfl
  · rw [effect_inputs, hi]; rfl
  · rw [hi]; rfl
  · rw [hi]; rfl

/-- Whatever is delivered before it, even to a halted block, a reset is reached and takes effect. -/
theorem run_to_reset {src : ResetSource} {rest : List HostInput} (before : List HostInput) {s : State}
    (hi : s.inputs = before ++ .reset src :: rest) :
    ∃ v, Host.Core.run Sys2Proof.core (before.length + 1) s = .next (applyReset v) ∧ v.cfg = s.cfg ∧
      v.inputs = rest := by
  induction before generalizing s with
  | nil => exact ⟨{ s with inputs := rest }, run_succ (step_of_input hi), rfl, rfl⟩
  | cons input before ih =>
    obtain ⟨u, hstep⟩ := step_next s
    have hu : u.inputs = before ++ .reset src :: rest := by rw [step_inputs hstep, hi]; rfl
    obtain ⟨v, hrun, hcfg, hinputs⟩ := ih hu
    exact ⟨v, (run_succ hstep).trans hrun, hcfg.trans (parametersNeverChange s u hstep), hinputs⟩

/-- Settles O52: the reset is the last input of the tick. -/
theorem firmwareResetTickEndsInTheResetState : Obligations.FirmwareResetTickEndsInTheResetState := by
  intro s rest hi
  rw [tickInputs, List.append_assoc] at hi
  obtain ⟨v, hrun, hcfg, rfl⟩ := run_to_reset _ hi
  refine ⟨applyReset v, ?run, ?state⟩
  case run => rw [tickInputs, List.length_append]; exact hrun
  case state => rw [← hcfg]; rfl

end Sys2Proof.Machine
end

section
/-! Faults and the halted state (spec/60_exceptions.md rules R280 to R286, R303): a halted block takes its command words
and does nothing with them; a fault is its bit of `FAULT` and then the halt; and the three causes are the only ones. -/

namespace Sys2Proof.Machine

/-! ### A step without input (R303) -/

/-- Settles O5: it is the first arm of `takeInput`. -/
theorem stepWithoutInputHoldsTheState : Obligations.StepWithoutInputHoldsTheState := by
  intro s hi
  rw [step, takeInput, hi]

/-! ### Words that spell no operation (R105, R283) -/

theorem runInput_illegalWord {w : Byte} {e : IllegalWord} (hd : decode w = .error e) (s : State) :
    runInput (.command w) s = perform (raiseFault causeIllcmd) s := by
  rw [runInput, runCommand, hd]

/-- The decoder names a reason for every word that is no operation's. -/
theorem decode_error_of_not_ok {w : Byte} (h : ¬ ∃ i, decode w = .ok i) : ∃ e, decode w = .error e := by
  cases hd : decode w with
  | ok i => exact absurd ⟨i, hd⟩ h
  | error e => exact ⟨e, rfl⟩

/-! ### The halted block (R286) -/

/-- Halted, a command word is ignored whether or not it is legal. -/
theorem runInput_command_halted {s : State} (hf : s.fault ≠ 0) (w : Byte) : runInput (.command w) s = .next s := by
  cases hd : decode w with
  | ok i => rw [runInput_command hd, exec_halted hf]
  | error e => rw [runInput_illegalWord hd, perform_halted hf]

theorem step_command_halted {s : State} {w : Byte} {rest : List HostInput} (hf : s.fault ≠ 0)
    (hi : s.inputs = .command w :: rest) : step s = .next { s with inputs := rest } := by
  rw [step_of_input hi]
  exact runInput_command_halted (s := { s with inputs := rest }) hf w

/-- Any number of command words is taken from the inputs, and nothing else changes. -/
theorem run_commands_halted (ws : List Byte) {rest : List HostInput} {s : State} (hf : s.fault ≠ 0)
    (hi : s.inputs = ws.map .command ++ rest) :
    Host.Core.run Sys2Proof.core ws.length s = .next { s with inputs := rest } := by
  induction ws generalizing s with
  | nil =>
    cases hi
    rfl
  | cons w ws ih =>
    have hstep : step s = .next { s with inputs := ws.map .command ++ rest } := step_command_halted hf hi
    rw [List.length_cons, run_succ hstep]
    exact ih hf rfl

/-- Settles O7: word by word for commands, and by the law of a halted block for operations. -/
theorem haltedBlockIgnoresEveryCommand : Obligations.HaltedBlockIgnoresEveryCommand :=
  ⟨fun ws _ _ hf hi => run_commands_halted ws hf hi, fun _ _ hf => exec_halted hf⟩

/-! ### Raising a fault (R280, R284) -/

/-- Each of the three cause codes has a bit of `FAULT` to set (R110). -/
theorem faultBit_ne_zero {cause : Nat} (hc : cause < 3) : faultBit cause ≠ 0 := by
  revert cause
  decide

theorem raiseFault_halts {cause : Nat} (hc : cause < 3) (s : State) : (raiseFault cause s).fault ≠ 0 :=
  fun h => faultBit_ne_zero hc (BitVec.or_eq_zero_iff.mp h).2

/-- On a running block a fault leaves its own bit in `FAULT` and no other. -/
theorem raiseFault_running {cause : Nat} {s : State} (hf : s.fault = 0) :
    raiseFault cause s = { s with fault := faultBit cause } := by
  have hfault : s.fault ||| faultBit cause = faultBit cause := by simp [hf]
  rw [raiseFault, hfault]

/-- Settles O6: a word outside the twelve is rejected, and the fault it raises halts the block. -/
theorem illegalWordRaisesIllcmd : Obligations.IllegalWordRaisesIllcmd := by
  intro s w hf hw
  obtain ⟨e, hd⟩ := decode_error_of_not_ok (mt (legalWordsAreTheTwelve w).mp hw)
  refine ⟨raiseFault causeIllcmd s, ?raised, raiseFault_running hf, fun i => ?ignored⟩
  case raised => rw [runInput_illegalWord hd, perform_running hf]
  case ignored => exact exec_halted (raiseFault_halts (by decide) s)

theorem debounce_undrained {s : State} (hq : s.evq ≠ []) : debounce s = raiseFault causeProto s := by
  rw [debounce, if_neg (mt List.isEmpty_iff.mp hq)]

/-- Settles O16: the comparators do not run, and the fault halts the block with its queue as it was. -/
theorem undrainedQueueRaisesProto : Obligations.UndrainedQueueRaisesProto := by
  intro s hf hq
  refine ⟨raiseFault causeProto s, ?raised, raiseFault_running hf, fun i => ?ignored⟩
  case raised => rw [exec_running hf, effect, debounce_undrained hq]
  case ignored => exact exec_halted (raiseFault_halts (by decide) s)

/-! ### The three causes and no other (R280) -/

theorem pinFailure_eq_false {s : State} (hpins : PinsWork s) : pinFailure s.cfg.toParams (scanAnswer s) = false := by
  cases hfail : (scanAnswer s).failAt with
  | none => rw [pinFailure, hfail]
  | some k =>
    rw [pinFailure, hfail]
    exact decide_eq_false (Nat.not_lt.mpr (hpins k hfail))

/-- With working pins `SCAN` raises no fault, whatever the shapes of the arrays. -/
theorem scan_fault_of_pinsWork {s : State} (hpins : PinsWork s) : (scan s).fault = s.fault := by
  simp only [scan, pinFailure_eq_false hpins, Bool.false_eq_true, if_false, scanCompletes]
  rw [scanRows_frame]
  rfl

theorem scan_runs_iff {s : State} (hf : s.fault = 0) : (scan s).fault = 0 ↔ PinsWork s := by
  by_cases hpins : PinsWork s
  · exact iff_of_true ((scan_fault_of_pinsWork hpins).trans hf) hpins
  · obtain ⟨-, -, -, hframe⟩ := scan_fails_spec s hpins
    have hioerr : (scan s).fault = (raiseFault causeIoerr s).fault := by rw [hframe]; rfl
    exact iff_of_false (hioerr ▸ raiseFault_halts (by decide) s) hpins

theorem debounce_runs_iff {s : State} (hf : s.fault = 0) : (debounce s).fault = 0 ↔ s.evq = [] := by
  by_cases hq : s.evq = []
  · have hdrained : debounce s = debounceAll s := by rw [debounce, hq]; rfl
    exact iff_of_true (by rw [hdrained]; exact hf) hq
  · rw [debounce_undrained hq]
    exact iff_of_false (raiseFault_halts (by decide) s) hq

/-- A legal word is safe exactly when the operation it spells raises no fault on a running block. -/
theorem effect_runs_iff_commandSafe {w : Byte} {i : Instr} (hd : decode w = .ok i) {s : State} (hf : s.fault = 0) :
    (effect i s).fault = 0 ↔ CommandSafe w s := by
  simp only [CommandSafe, hd]
  cases i with
  | scan => exact scan_runs_iff hf
  | debounce => exact debounce_runs_iff hf
  | _ => exact iff_of_true ((effect_fault (by nofun) (by nofun) s).trans hf) trivial

theorem not_commandSafe_of_illegalWord {w : Byte} {e : IllegalWord} (hd : decode w = .error e) (s : State) :
    ¬ CommandSafe w s := by
  simp only [CommandSafe, hd, not_false_iff]

/-- What the host has lined up does not decide whether a command is safe. -/
theorem commandSafe_inputs (w : Byte) (s : State) (rest : List HostInput) :
    CommandSafe w { s with inputs := rest } ↔ CommandSafe w s :=
  Iff.rfl

/-- Settles O10: a legal word by its operation, an illegal one by ILLCMD. -/
theorem blockHaltsOnlyOnTheThreeCauses : Obligations.BlockHaltsOnlyOnTheThreeCauses := by
  intro s w rest hf hi
  rw [step_of_input hi, ← commandSafe_inputs w s rest]
  have hrunning : { s with inputs := rest }.fault = 0 := hf
  cases hd : decode w with
  | ok i =>
    refine ⟨effect i { s with inputs := rest }, ?ran, effect_runs_iff_commandSafe hd hrunning⟩
    case ran => rw [runInput_command hd, exec_running hrunning]
  | error e =>
    refine ⟨raiseFault causeIllcmd { s with inputs := rest }, ?raised, iff_of_false ?halts ?illegal⟩
    case raised => rw [runInput_illegalWord hd, perform_running hrunning]
    case halts => exact raiseFault_halts (by decide) _
    case illegal => exact not_commandSafe_of_illegalWord hd _

end Sys2Proof.Machine
end
